-- ==== Sys2Proof/Word.lean ====
section
/-! DEFINITION. Bytes, words and sequences of a fixed length (00_scope.md R9 to R11). -/

namespace Sys2Proof

/-- A byte, an unsigned integer 0..255 (R9); bit 0 is the least significant (R10). -/
abbrev Byte := BitVec 8

/-- A 16-bit word (R10, R45). -/
abbrev Word := BitVec 16

/-- A sequence of exactly `n` elements: the data with the proof of its length, so that a layout of a fixed
size (a 64-byte report, a 250-byte record) cannot be built at another size (R44). -/
abbrev Vec (α : Type) (n : Nat) := { l : List α // l.length = n }

/-- A byte space of fixed extent (10_state.md R28). -/
abbrev Bytes (n : Nat) := Vec Byte n

/-- A FixedReport, "exactly 64 bytes" (30_encoding.md R70). -/
abbrev Report := Bytes 64

/-- The sequence `f 0, f 1, ..., f (n-1)`. -/
def Vec.tab {α : Type} (n : Nat) (f : Nat → α) : Vec α n := ⟨(List.range n).map f, by simp⟩

/-- `zeros(n)` of R9. -/
def zeros (n : Nat) : List Byte := List.replicate n 0

end Sys2Proof
end

