-- ==== Sys2Proof/Syntax.lean ====
section
/-! DEFINITION. What crosses the operation port: the structured operands, the instructions (one constructor for
each row of spec/opcode_table.json) and the three places an instruction is read from. -/

namespace Sys2Proof

/-- One PanelSensorSettings sub-record, 13 values in 16 bytes (30_encoding.md R79, 42_config_codec.md R150). -/
structure PanelSensorSettings where
  loadCellLowThreshold : Byte
  loadCellHighThreshold : Byte
  fsrLowThreshold : Bytes 4
  fsrHighThreshold : Bytes 4
  combinedLowThreshold : Word
  combinedHighThreshold : Word
  reserved : Word
deriving DecidableEq, Repr

/-- The configuration record as 216 values, each at its layout width and unsigned (R78, R150). The names of the
fields of bytes 0 to 16 and of `preDetailsDelayMilliseconds` are general knowledge (R80); the codec does not
depend on them. -/
structure ConfigRecord where
  masterVersion : Byte
  configVersion : Byte
  flags : Byte
  debounceNodelayMilliseconds : Word
  debounceDelayMilliseconds : Word
  panelDebounceMicroseconds : Word
  autoCalibrationMaxDeviation : Byte
  badSensorMinimumDelaySeconds : Byte
  autoCalibrationAveragesPerUpdate : Word
  autoCalibrationSamplesPerAverage : Word
  autoCalibrationMaxTare : Word
  enabledSensors : Bytes 5
  autoLightsTimeout : Byte
  stepColor : Bytes 27
  platformStripColor : Bytes 3
  autoLightPanelMask : Word
  panelRotation : Byte
  panelSettings : Vec PanelSensorSettings 9
  preDetailsDelayMilliseconds : Byte
  padding : Bytes 49
deriving DecidableEq, Repr

/-- The operations and patterns of spec/opcode_table.json, one constructor a row.

The first ten are the operations of the port (R85). The next nine are the patterns a raw report is decoded to
when the session takes it from the queue (R91): each carries the whole report. The last nine are the tags a
completed payload is dispatched on (R90, R219): each carries the payload's bytes after the tag. -/
inductive Instr where
  | enc (cmd : List Byte)
  | asm (r : Report)
  | aclr
  | inp (r : Report)
  | eclr (mask : Byte)
  | cfgd (b : List Byte)
  | cfge (record : ConfigRecord)
  | cfgu (p : List Byte)
  | idd (p : List Byte)
  | diag (w : List Word)
  | asmMid (r : Report)
  | asmEnd (r : Report)
  | asmStart (r : Report)
  | asmSingle (r : Report)
  | asmMalformed (r : Report)
  | asmIgnored (r : Report)
  | asmHcf (r : Report)
  | asmDevinfo (r : Report)
  | inpReport (r : Report)
  | tagGetDeviceInfo (body : List Byte)
  | tagGetConfig (body : List Byte)
  | tagGetConfigV5 (body : List Byte)
  | tagWriteConfig (body : List Byte)
  | tagWriteConfigV5 (body : List Byte)
  | tagFactoryReset (body : List Byte)
  | tagSetLightStrip (body : List Byte)
  | tagForceRecalibration (body : List Byte)
  | tagGetSensorTestData (body : List Byte)
deriving DecidableEq, Repr

/-- What an instruction is decoded from, with the place it is read at. -/
inductive Issue where
  /-- The operation port: one byte whose bits 3:0 are `op`, then the operand bytes (R85, R88). -/
  | op (bytes : List Byte)
  /-- A raw inbound report, classified by its bytes 0 to 2 (R75, R91). -/
  | report (r : Report)
  /-- A completed payload, classified by its byte 0 (R90, R219). -/
  | payload (p : List Byte)
deriving DecidableEq, Repr

/-- Why a decoder rejects. -/
inductive DecodeError where
  /-- No op byte was presented (R85). -/
  | emptyPort
  /-- Bits 7:4 of the op byte are set, where `op` has 4 bits (R85). -/
  | selectTooWide (b : Byte)
  /-- Op 0xA to 0xF, which "the port never carries" (R86, 93_implementation_defined.md A19). -/
  | unassignedOp (op : Nat)
  /-- The operand has not the size its operation takes (20_memory.md R44). -/
  | operandSize (op given : Nat)
  /-- A DIAG operand with half a word (43_diagnostic_decoder.md R190). -/
  | halfWord (given : Nat)
  /-- A CFGE operand with a value outside its field's width (42_config_codec.md R150). -/
  | valueTooWide
  /-- A payload that is empty or whose first byte is none of the nine tags (R219). -/
  | unknownTag (echo : Option Byte)
deriving DecidableEq, Repr

end Sys2Proof
end

