-- ==== Sys2Proof/Config.lean ====
section
/-! DEFINITION. The values an operation returns, the parameters the spec leaves open (00_scope.md R8) and the
free functions. -/

namespace Sys2Proof

/-! ### Returned values -/

/-- The status of an operation or host procedure with its recorded value (60_exceptions.md R240). -/
inductive Status where
  | ok
  | malformedReport (length : Byte)
  | timeout
  | connectionNotFound
  | invalidConfigPacket
  | rateLimited (remaining : Nat)
  | badLength (given : Nat)
  | unknownOpcode (echo : Option Byte)
  | bufferOverflow
deriving DecidableEq, Repr

/-- The outcome of one ASM step (41_packet_assembler.md R120). -/
inductive StepOutcome where
  | incomplete
  | complete (payload : List Byte)
deriving DecidableEq, Repr

/-- The step result of ASM (R120): outcome, status and the five step flags (10_state.md R25). -/
structure StepResult where
  outcome : StepOutcome
  status : Status
  ignored : Bool
  malformed : Bool
  resync : Bool
  hostCmdFinished : Bool
  deviceInfo : Bool
deriving DecidableEq, Repr

/-- The decoded identity response (42_config_codec.md R170). `player` is computed without wrap (R172). -/
structure DeviceIdentity where
  serial : Bytes 16
  serialHex : Vec Char 32
  firmwareVersion : Word
  player : Nat
deriving DecidableEq, Repr

/-- The diagnostic data of one present panel (43_diagnostic_decoder.md R190). Bit `s` of the two 4-bit fields
belongs to sensor `s`. -/
structure PanelDiag where
  badSensor : BitVec 4
  sensor : Vec Int 4
  dip : BitVec 4
  badSensorJumper : BitVec 4
deriving DecidableEq, Repr

/-- `none` is the value `absent`, which carries no readings (R198, 90_conflicts.md C2). -/
abbrev DiagnosticFrame := Vec (Option PanelDiag) 9

/-! ### Parameters (R8) -/

/-- The nine command tags (30_encoding.md R90). -/
structure Tags where
  getDeviceInfo : Byte
  getConfig : Byte
  getConfigV5 : Byte
  writeConfig : Byte
  writeConfigV5 : Byte
  factoryReset : Byte
  setLightStrip : Byte
  forceRecalibration : Byte
  getSensorTestData : Byte
deriving DecidableEq, Repr

/-- The parameter `is_ack` as plain data: R215's default, or any other predicate. -/
inductive AckRule where
  | hostCmdFinished
  | other (n : Nat)
deriving DecidableEq, Repr

/-- The parameter `build_write_cmd` as plain data: the layout R218 suggests, or any other function. -/
inductive WriteCmdRule where
  | tagSizeRecord
  | other (n : Nat)
deriving DecidableEq, Repr

/-- Where the host locates the start of the diagnostic stream inside a get-sensor-test-data response, which is not
in the source (R191): at a fixed offset, or anywhere it chooses from the payload. -/
inductive StreamRule where
  | at (offset : Nat)
  | other (n : Nat)
deriving DecidableEq, Repr

/-- The parameters of R8: "constants of the instance" (70_reset_and_hazards.md R271). -/
structure Params where
  ridCmdOut : Byte
  ridCmdIn : Byte
  ridInput : Byte
  /-- BUF_CAP; `none` is unbounded. -/
  bufCap : Option Nat
  /-- CMD_MAX; `none` is unbounded. -/
  cmdMax : Option Nat
  cfgDefault : Bytes 250
  tags : Tags
  /-- CFG_TERMINATOR: no rule examines it (42_config_codec.md R174). -/
  cfgTerminator : Byte
  connectRetries : Nat
  queueCap : Nat
  ackRule : AckRule
  writeCmdRule : WriteCmdRule
  streamRule : StreamRule
deriving DecidableEq, Repr

/-- The nine tags in the order of R90's table. -/
def Tags.toList (t : Tags) : List Byte :=
  [t.getDeviceInfo, t.getConfig, t.getConfigV5, t.writeConfig, t.writeConfigV5, t.factoryReset,
    t.setLightStrip, t.forceRecalibration, t.getSensorTestData]

/-- The constraints R8 puts on the parameters. -/
abbrev Params.Ok (c : Params) : Prop :=
  c.ridCmdIn ≠ c.ridInput ∧
  c.bufCap.all (fun cap => decide (61 ≤ cap)) = true ∧
  c.tags.toList.Nodup ∧
  1 ≤ c.connectRetries ∧
  1 ≤ c.queueCap ∧
  c.cfgDefault.val.getD 7 0 = 0xA0#8 ∧ c.cfgDefault.val.getD 8 0 = 0x0F#8 ∧
  c.cfgDefault.val.getD 15 0 = 0xFF#8 ∧ c.cfgDefault.val.getD 16 0 = 0xFF#8

/-! ### Free functions: nothing fixes them, so a claim holds whatever they are -/

/-- DESIGN CHOICE (log 1): the predicate `is_ack` where it is not R215's default. -/
opaque Config.freeAck : Nat → StepResult → Bool

/-- DESIGN CHOICE (log 1): `build_write_cmd` where it is not R218's suggestion, for the device's firmware version. -/
opaque Config.freeWriteCmd : Nat → Word → ConfigRecord → List Byte

/-- DESIGN CHOICE (log 21): what follows the legacy write-config tag. No source gives the legacy record or request
(44_device_session_host.md R223, 93_implementation_defined.md A16). -/
opaque Config.freeLegacyWrite : ConfigRecord → List Byte

/-- DESIGN CHOICE (log 9): where the host locates the diagnostic stream, from the response payload. -/
opaque Config.freeStreamStart : Nat → List Byte → Nat

/-- DESIGN CHOICE (log 8): whether an EMPTY command accepts a non-empty payload. `accepts(cmd, p)` compares
`p[0]` with `cmd[0]` (R219) and an empty command has no `cmd[0]`. -/
opaque Config.freeAcceptsEmpty : List Byte → Bool

/-! ### The suggested instance -/

/-- The suggested tag values `i g G w W f L C y`. PRESUMED (log 1): "from general knowledge, not in source"
(R90). -/
def Config.suggestedTags : Tags where
  getDeviceInfo := 0x69
  getConfig := 0x67
  getConfigV5 := 0x47
  writeConfig := 0x77
  writeConfigV5 := 0x57
  factoryReset := 0x66
  setLightStrip := 0x4C
  forceRecalibration := 0x43
  getSensorTestData := 0x79

/-- The suggested CFG_DEFAULT image (42_config_codec.md R177). Offsets 7, 8, 15 and 16 are the source's; PRESUMED
(log 1) elsewhere. -/
def Config.suggestedDefault : Bytes 250 :=
  ⟨[0xFF, 0x05, 0x00, 0x00, 0x00, 0x00, 0x00, 0xA0, 0x0F, 0x64, 0x0F, 0x3C, 0x00, 0xF4, 0x01, 0xFF, 0xFF,
      0x00, 0x00, 0x00, 0x00, 0x00, 0x07] ++ zeros 30 ++ [0xFF, 0xFF, 0x00] ++ zeros 144 ++ [0x05] ++ zeros 49,
    by simp only [zeros, List.length_append, List.length_replicate, List.length_cons, List.length_nil]⟩

/-- The parameters at the values R8 suggests. PRESUMED (log 1) for the report ids, tags and default image; DESIGN
CHOICE (log 1) for the terminator and the queue bound, for which R8 suggests none. -/
def Config.suggested : Params where
  ridCmdOut := 5
  ridCmdIn := 6
  ridInput := 3
  bufCap := none
  cmdMax := none
  cfgDefault := Config.suggestedDefault
  tags := Config.suggestedTags
  cfgTerminator := 0x0A
  connectRetries := 3
  queueCap := 16
  ackRule := .hostCmdFinished
  writeCmdRule := .tagSizeRecord
  streamRule := .at 3

end Sys2Proof
end

