-- ==== Sys2Proof/Machine/Operands.lean ====
section
/-! DEFINITION. Operand assembly: the complete list of 30_encoding.md R87, and the field accesses of
20_memory.md R46 and R47. Everything is little-endian (R40 to R42). -/

namespace Sys2Proof.Machine

/-! ### Field access (R46, R47) and multi-byte values (R11) -/

/-- `le16(lo, hi) = lo + 256 * hi` (R11). -/
def le16 (lo hi : Byte) : Word := hi ++ lo

/-- `lo8(v)` (R11). -/
def lo8 (v : Word) : Byte := v.setWidth 8

/-- `hi8(v)` (R11). -/
def hi8 (v : Word) : Byte := (v >>> 8).setWidth 8

/-- `s16(v)`, the two's complement reading, the only sign extension of the PE (R11, R87 (10)). -/
def s16 (v : Word) : Int := v.toInt

/-- `MemRead(space, addr, 1)` (R46). -/
def readByte (space : List Byte) (addr : Nat) : Byte := space.getD addr 0

/-- `MemRead(space, addr, 2)` (R46): low byte first. -/
def readWord (space : List Byte) (addr : Nat) : Word :=
  le16 (readByte space addr) (readByte space (addr + 1))

/-- `space[addr : addr+n]` (R9) of a space that holds it. -/
def readBytes (space : List Byte) (addr n : Nat) : Bytes n :=
  Vec.tab n fun e => readByte space (addr + e)

/-- The bytes `MemWrite(space, addr, 2, v)` stores, in address order (R47). -/
def wordBytes (v : Word) : List Byte := [lo8 v, hi8 v]

/-- A byte stream as 16-bit words, low byte first (R83, R191). A last odd byte makes no word. -/
def wordsOfBytes : List Byte → List Word
  | lo :: hi :: rest => le16 lo hi :: wordsOfBytes rest
  | _ => []

/-- A word sequence as its byte stream, low byte first (R83). -/
def bytesOfWords (w : List Word) : List Byte := w.flatMap wordBytes

end Sys2Proof.Machine

namespace Sys2Proof

open Sys2Proof.Machine

/-! ### The report (R70 to R75) -/

/-- Byte 0, the report id (R70). -/
def Report.kindByte (r : Report) : Byte := readByte r.val 0

/-- Byte 1, flags/opcode (R71). -/
def Report.flags (r : Report) : Byte := readByte r.val 1

/-- Byte 2, the length, zero-extended (R72, R87 (1)). -/
def Report.len (r : Report) : Nat := (readByte r.val 2).toNat

/-- Bit 0, end-of-command (R71). -/
def Report.flagE (r : Report) : Bool := r.flags.getLsbD 0

/-- Bit 1, host-cmd-finished (R71). -/
def Report.flagF (r : Report) : Bool := r.flags.getLsbD 1

/-- Bit 2, start-of-command (R71). -/
def Report.flagS (r : Report) : Bool := r.flags.getLsbD 2

/-- Bit 7, device-info-response (R71). -/
def Report.flagD (r : Report) : Bool := r.flags.getLsbD 7

/-- The payload `r[3 : 3 + length]` (R73, R87 (2)). -/
def Report.payload (r : Report) : List Byte := (r.val.drop 3).take r.len

/-- The panel mask `le16(r[1], r[2])` of an input-channel report (R74, R87 (4)). -/
def Report.mask (r : Report) : Word := readWord r.val 1

/-- The kind of an inbound report (R75). -/
inductive ReportKind where
  | command
  | input
  | unknown
deriving DecidableEq, Repr

/-- Classification by byte 0 (R75). -/
def Report.kind (c : Params) (r : Report) : ReportKind :=
  if r.kindByte = c.ridCmdIn then .command
  else if r.kindByte = c.ridInput then .input
  else .unknown

/-- `RPT(id, flags, len, data)` of R88: the header, the data and zeros up to 64 bytes. -/
def Report.build (rid flags len : Byte) (data : List Byte) : Report :=
  ⟨[rid, flags, len] ++ (data.take 61 ++ zeros (61 - (data.take 61).length)), by
    simp [zeros]⟩

end Sys2Proof

namespace Sys2Proof.Machine

/-! ### Identity response (R82, R87 (8)) -/

/-- The uppercase hexadecimal digit of a value 0..15 (42_config_codec.md R171). -/
def hexDigit (n : Nat) : Char :=
  ['0', '1', '2', '3', '4', '5', '6', '7', '8', '9', 'A', 'B', 'C', 'D', 'E', 'F'].getD n '0'

/-- `hex_upper` (R171): two digits a byte, high nibble first, first byte first. -/
def hexUpper {n : Nat} (s : Bytes n) : Vec Char (2 * n) :=
  ⟨s.val.flatMap fun b => [hexDigit (b.toNat / 16), hexDigit (b.toNat % 16)], by
    simp [List.length_flatMap, s.property, Nat.mul_comm]⟩

/-! ### Diagnostic stream (R83, R84, R87 (9), (10)) -/

/-- Bit `p` of word `8*j + k`, moved to bit `k`: one of the eight terms of R192's sum. -/
def gatherBit (w : List Word) (p j k : Nat) : Nat :=
  (((w.getD (8 * j + k) 0).toNat >>> p) &&& 1) <<< k

/-- `gather(w, p, j)` (43_diagnostic_decoder.md R192): byte `j` of panel `p`'s record. -/
def gather (w : List Word) (p j : Nat) : Byte :=
  BitVec.ofNat 8 ((List.range 8).map (gatherBit w p j)).sum

/-- The de-interleaved 10-byte record of panel `p` (R84). -/
def panelRecord (w : List Word) (p : Nat) : Bytes 10 := Vec.tab 10 (gather w p)

end Sys2Proof.Machine
end

