-- ==== Sys2Proof/Machine/Record.lean ====
section
/-! DEFINITION. The two fixed layouts of the configuration record: bytes to record (42_config_codec.md R152 to
R155), record to bytes (R156) and the flat value list (R153). -/

namespace Sys2Proof.Machine

/-! ### Bytes to record -/

/-- Sub-record `p` at `B = 56 + 16*p` (R154). -/
def unpackPanel (b : List Byte) (p : Nat) : PanelSensorSettings where
  loadCellLowThreshold := readByte b (56 + 16 * p)
  loadCellHighThreshold := readByte b (56 + 16 * p + 1)
  fsrLowThreshold := readBytes b (56 + 16 * p + 2) 4
  fsrHighThreshold := readBytes b (56 + 16 * p + 6) 4
  combinedLowThreshold := readWord b (56 + 16 * p + 10)
  combinedHighThreshold := readWord b (56 + 16 * p + 12)
  reserved := readWord b (56 + 16 * p + 14)

/-- `unpack` (R151): prefix (R152), nine sub-records (R154), tail (R155). -/
def unpack (b : Bytes 250) : ConfigRecord where
  masterVersion := readByte b.val 0
  configVersion := readByte b.val 1
  flags := readByte b.val 2
  debounceNodelayMilliseconds := readWord b.val 3
  debounceDelayMilliseconds := readWord b.val 5
  panelDebounceMicroseconds := readWord b.val 7
  autoCalibrationMaxDeviation := readByte b.val 9
  badSensorMinimumDelaySeconds := readByte b.val 10
  autoCalibrationAveragesPerUpdate := readWord b.val 11
  autoCalibrationSamplesPerAverage := readWord b.val 13
  autoCalibrationMaxTare := readWord b.val 15
  enabledSensors := readBytes b.val 17 5
  autoLightsTimeout := readByte b.val 22
  stepColor := readBytes b.val 23 27
  platformStripColor := readBytes b.val 50 3
  autoLightPanelMask := readWord b.val 53
  panelRotation := readByte b.val 55
  panelSettings := Vec.tab 9 (unpackPanel b.val)
  preDetailsDelayMilliseconds := readByte b.val 200
  padding := readBytes b.val 201 49

/-! ### Record to bytes -/

/-- The 16 bytes of a sub-record in offset order (R79, R154 read right to left). -/
def packPanel (q : PanelSensorSettings) : Bytes 16 :=
  ⟨[q.loadCellLowThreshold, q.loadCellHighThreshold] ++ q.fsrLowThreshold.val ++ q.fsrHighThreshold.val ++
      wordBytes q.combinedLowThreshold ++ wordBytes q.combinedHighThreshold ++ wordBytes q.reserved, by
    simp [wordBytes, q.fsrLowThreshold.property, q.fsrHighThreshold.property]⟩

/-- The 56 bytes before the sub-records, in offset order (R78). -/
def packPrefix (r : ConfigRecord) : Bytes 56 :=
  ⟨[r.masterVersion, r.configVersion, r.flags] ++
      wordBytes r.debounceNodelayMilliseconds ++ wordBytes r.debounceDelayMilliseconds ++
      wordBytes r.panelDebounceMicroseconds ++
      [r.autoCalibrationMaxDeviation, r.badSensorMinimumDelaySeconds] ++
      wordBytes r.autoCalibrationAveragesPerUpdate ++ wordBytes r.autoCalibrationSamplesPerAverage ++
      wordBytes r.autoCalibrationMaxTare ++
      r.enabledSensors.val ++ [r.autoLightsTimeout] ++ r.stepColor.val ++ r.platformStripColor.val ++
      wordBytes r.autoLightPanelMask ++ [r.panelRotation], by
    simp [wordBytes, r.enabledSensors.property, r.stepColor.property, r.platformStripColor.property]⟩

/-- The 144 bytes of the nine contiguous sub-records (R79). -/
def packPanels (ps : Vec PanelSensorSettings 9) : Bytes 144 :=
  ⟨ps.val.flatMap fun q => (packPanel q).val, by
    simp [List.length_flatMap, (packPanel _).property, ps.property]⟩

/-- The 250-byte image of a record (R156): every field at its layout offset, padding and reserved fields as
held. -/
def pack (r : ConfigRecord) : Bytes 250 :=
  ⟨(packPrefix r).val ++ (packPanels r.panelSettings).val ++ [r.preDetailsDelayMilliseconds] ++ r.padding.val, by
    simp [(packPrefix r).property, (packPanels r.panelSettings).property, r.padding.property]⟩

/-! ### The field table and the flat value list -/

/-- A row of the field table: offset, width in bytes, element count, field index of its first element. -/
structure FieldRow where
  offset : Nat
  width : Nat
  count : Nat
  index : Nat
deriving DecidableEq, Repr

/-- The rows of sub-record `p` (30_encoding.md R79). -/
def panelRows (p : Nat) : List FieldRow :=
  [⟨56 + 16 * p, 1, 1, 49 + 13 * p⟩, ⟨56 + 16 * p + 1, 1, 1, 49 + 13 * p + 1⟩,
   ⟨56 + 16 * p + 2, 1, 4, 49 + 13 * p + 2⟩, ⟨56 + 16 * p + 6, 1, 4, 49 + 13 * p + 6⟩,
   ⟨56 + 16 * p + 10, 2, 1, 49 + 13 * p + 10⟩, ⟨56 + 16 * p + 12, 2, 1, 49 + 13 * p + 11⟩,
   ⟨56 + 16 * p + 14, 2, 1, 49 + 13 * p + 12⟩]

/-- The table of R78 in order, its panel_settings row written out by R79: "the field table itself is the
authoritative contract" (R152). -/
def fieldTable : List FieldRow :=
  [⟨0, 1, 1, 0⟩, ⟨1, 1, 1, 1⟩, ⟨2, 1, 1, 2⟩, ⟨3, 2, 1, 3⟩, ⟨5, 2, 1, 4⟩, ⟨7, 2, 1, 5⟩, ⟨9, 1, 1, 6⟩,
   ⟨10, 1, 1, 7⟩, ⟨11, 2, 1, 8⟩, ⟨13, 2, 1, 9⟩, ⟨15, 2, 1, 10⟩, ⟨17, 1, 5, 11⟩, ⟨22, 1, 1, 16⟩,
   ⟨23, 1, 27, 17⟩, ⟨50, 1, 3, 44⟩, ⟨53, 2, 1, 47⟩, ⟨55, 1, 1, 48⟩] ++
  (List.range 9).flatMap panelRows ++
  [⟨200, 1, 1, 166⟩, ⟨201, 1, 49, 167⟩]

/-- The (offset, width) of every element, in field index order. -/
def fieldElements : List (Nat × Nat) :=
  fieldTable.flatMap fun f => (List.range f.count).map fun e => (f.offset + f.width * e, f.width)

/-- `values(b)` of R153: the 216 values read from the bytes row by row, each as an unsigned integer. -/
def flatValues (b : Bytes 250) : List Nat :=
  fieldElements.map fun (o, w) =>
    if w = 1 then (readByte b.val o).toNat else (readWord b.val o).toNat

/-- An 8-bit field read as a non-negative integer in a 16-bit slot (`zext`, R11). -/
def zext16 (b : Byte) : Word := b.setWidth 16

/-- The 13 values of a sub-record in the order of R79. -/
def panelValues (q : PanelSensorSettings) : List Word :=
  [zext16 q.loadCellLowThreshold, zext16 q.loadCellHighThreshold] ++
    q.fsrLowThreshold.val.map zext16 ++ q.fsrHighThreshold.val.map zext16 ++
    [q.combinedLowThreshold, q.combinedHighThreshold, q.reserved]

/-- The 216 values of a record in field index order (R78, R150). -/
def recordValues (r : ConfigRecord) : List Word :=
  [zext16 r.masterVersion, zext16 r.configVersion, zext16 r.flags,
    r.debounceNodelayMilliseconds, r.debounceDelayMilliseconds, r.panelDebounceMicroseconds,
    zext16 r.autoCalibrationMaxDeviation, zext16 r.badSensorMinimumDelaySeconds,
    r.autoCalibrationAveragesPerUpdate, r.autoCalibrationSamplesPerAverage, r.autoCalibrationMaxTare] ++
  r.enabledSensors.val.map zext16 ++ [zext16 r.autoLightsTimeout] ++
  r.stepColor.val.map zext16 ++ r.platformStripColor.val.map zext16 ++
  [r.autoLightPanelMask, zext16 r.panelRotation] ++
  r.panelSettings.val.flatMap panelValues ++
  [zext16 r.preDetailsDelayMilliseconds] ++ r.padding.val.map zext16

/-- The value at a field index, as an 8-bit field. -/
def valueByte (v : List Word) (i : Nat) : Byte := lo8 (v.getD i 0)

/-- The value at a field index, as a 16-bit field. -/
def valueWord (v : List Word) (i : Nat) : Word := v.getD i 0

/-- `n` 8-bit fields from a field index on. -/
def valueBytes (v : List Word) (i n : Nat) : Bytes n := Vec.tab n fun e => valueByte v (i + e)

/-- Sub-record `p` from the flat list: index base `49 + 13*p` (R87 (6)). -/
def panelOfValues (v : List Word) (p : Nat) : PanelSensorSettings where
  loadCellLowThreshold := valueByte v (49 + 13 * p)
  loadCellHighThreshold := valueByte v (49 + 13 * p + 1)
  fsrLowThreshold := valueBytes v (49 + 13 * p + 2) 4
  fsrHighThreshold := valueBytes v (49 + 13 * p + 6) 4
  combinedLowThreshold := valueWord v (49 + 13 * p + 10)
  combinedHighThreshold := valueWord v (49 + 13 * p + 11)
  reserved := valueWord v (49 + 13 * p + 12)

/-- Whether every value of a flat list fits its field: "a model that holds fields in a wider type must refuse,
not truncate, a value outside the width" (R150). -/
def valuesFit (v : List Word) : Bool :=
  (v.zip fieldElements).all fun (x, _, w) => decide (w = 2) || decide (x.toNat < 256)

/-- The record of 216 values that fit. -/
def recordOfValues (v : List Word) : ConfigRecord where
  masterVersion := valueByte v 0
  configVersion := valueByte v 1
  flags := valueByte v 2
  debounceNodelayMilliseconds := valueWord v 3
  debounceDelayMilliseconds := valueWord v 4
  panelDebounceMicroseconds := valueWord v 5
  autoCalibrationMaxDeviation := valueByte v 6
  badSensorMinimumDelaySeconds := valueByte v 7
  autoCalibrationAveragesPerUpdate := valueWord v 8
  autoCalibrationSamplesPerAverage := valueWord v 9
  autoCalibrationMaxTare := valueWord v 10
  enabledSensors := valueBytes v 11 5
  autoLightsTimeout := valueByte v 16
  stepColor := valueBytes v 17 27
  platformStripColor := valueBytes v 44 3
  autoLightPanelMask := valueWord v 47
  panelRotation := valueByte v 48
  panelSettings := Vec.tab 9 (panelOfValues v)
  preDetailsDelayMilliseconds := valueByte v 166
  padding := valueBytes v 167 49

end Sys2Proof.Machine
end

