-- ==== Sys2Proof/WellFormed.lean ====
section
/-! DEFINITION. Well-formed instructions: a report pattern's own conditions (the rows of spec/opcode_table.json
with their masks and conditions) and the command length bound. -/

namespace Sys2Proof

/-- Byte 1 under a mask (the `mask` and `match` of an RPT row). -/
def Report.flagsMatch (r : Report) (mask value : Byte) : Bool := decide (r.flags &&& mask = value)

/-- The condition the framing and modifier rows share: byte 0 = RID_CMD_IN and byte 2 <= 61. -/
def Report.accepted (c : Params) (r : Report) : Bool :=
  decide (r.kindByte = c.ridCmdIn) && decide (r.len ≤ 61)

/-- A row of the table with a condition for it, beyond what the types say.

The two modifier rows combine with the four framing rows (R91), so one report matches a framing row and up to
two modifiers. Its instruction is the outermost one: ASM.DEVINFO before ASM.HCF before the framing row. The
three masks 0x82, 0x80 below keep the rows apart in that order. -/
def Instr.WellFormed (c : Params) : Instr → Bool
  | .enc cmd => c.cmdMax.all fun m => decide (cmd.length ≤ m)
  | .asm _ => true
  | .aclr => true
  | .inp _ => true
  | .eclr _ => true
  | .cfgd _ => true
  | .cfge _ => true
  | .cfgu _ => true
  | .idd _ => true
  | .diag _ => true
  | .asmMid r => r.accepted c && r.flagsMatch 0x05 0x00 && r.flagsMatch 0x82 0x00
  | .asmEnd r => r.accepted c && r.flagsMatch 0x05 0x01 && r.flagsMatch 0x82 0x00
  | .asmStart r => r.accepted c && r.flagsMatch 0x05 0x04 && r.flagsMatch 0x82 0x00
  | .asmSingle r => r.accepted c && r.flagsMatch 0x05 0x05 && r.flagsMatch 0x82 0x00
  | .asmMalformed r => decide (r.kindByte = c.ridCmdIn) && decide (62 ≤ r.len)
  | .asmIgnored r => decide (r.kindByte ≠ c.ridCmdIn) && decide (r.kindByte ≠ c.ridInput)
  | .asmHcf r => r.accepted c && r.flagsMatch 0x02 0x02 && r.flagsMatch 0x80 0x00
  | .asmDevinfo r => r.accepted c && r.flagsMatch 0x80 0x80
  | .inpReport r => decide (r.kindByte ≠ c.ridCmdIn) && decide (r.kindByte = c.ridInput)
  | .tagGetDeviceInfo _ => true
  | .tagGetConfig _ => true
  | .tagGetConfigV5 _ => true
  | .tagWriteConfig _ => true
  | .tagWriteConfigV5 _ => true
  | .tagFactoryReset _ => true
  | .tagSetLightStrip _ => true
  | .tagForceRecalibration _ => true
  | .tagGetSensorTestData _ => true

end Sys2Proof
end

