-- ==== Sys2Proof/Decode.lean ====
section
/-! DEFINITION. The decoder of the three places an instruction is read from (the operation port, a raw report, a
completed payload), total and rejecting by name, and the encoder after it. -/

namespace Sys2Proof

open Sys2Proof.Machine

/-! ### The operation port (30_encoding.md R85, R88) -/

/-- An operand that is one 64-byte report: "the operation port cannot carry a report of another size"
(20_memory.md R44). -/
def decodeReportOperand (op : Nat) (x : List Byte) (k : Report → Instr) : Except DecodeError Instr :=
  if h : x.length = 64 then .ok (k ⟨x, h⟩) else .error (.operandSize op x.length)

/-- The operand of CFGE: the 216 values of R153 in field index order, each as two bytes, low byte first. DESIGN
CHOICE (log 4). A value wider than its field is refused, not truncated (42_config_codec.md R150). -/
def decodeRecordOperand (x : List Byte) : Except DecodeError Instr :=
  if x.length = 432 then
    if valuesFit (wordsOfBytes x) then .ok (.cfge (recordOfValues (wordsOfBytes x))) else .error .valueTooWide
  else .error (.operandSize 6 x.length)

/-- The operand of DIAG: a sequence of words as a byte stream (R83). -/
def decodeWordOperand (x : List Byte) : Except DecodeError Instr :=
  if x.length % 2 = 0 then .ok (.diag (wordsOfBytes x)) else .error (.halfWord x.length)

/-- An operation by its 4-bit select (R85) and operand bytes. -/
def decodeSelect (op : Nat) (x : List Byte) : Except DecodeError Instr :=
  match op with
  | 0x0 => .ok (.enc x)
  | 0x1 => decodeReportOperand 1 x .asm
  | 0x2 => if x = [] then .ok .aclr else .error (.operandSize 2 x.length)
  | 0x3 => decodeReportOperand 3 x .inp
  | 0x4 =>
    match x with
    | [m] => .ok (.eclr m)
    | _ => .error (.operandSize 4 x.length)
  | 0x5 => .ok (.cfgd x)
  | 0x6 => decodeRecordOperand x
  | 0x7 => .ok (.cfgu x)
  | 0x8 => .ok (.idd x)
  | 0x9 => decodeWordOperand x
  | _ => .error (.unassignedOp op)

/-- The port: `op` in bits 3:0 of the first byte, whose bits 7:4 are 0 (DESIGN CHOICE, log 4), then the operand. -/
def decodeOp : List Byte → Except DecodeError Instr
  | [] => .error .emptyPort
  | b :: x => if 16 ≤ b.toNat then .error (.selectTooWide b) else decodeSelect b.toNat x

/-! ### A raw report (R75, R91) -/

/-- The framing row of a report by bits S and E (mask 0x05 on byte 1). -/
def framingRow (r : Report) : Instr :=
  match r.flagS, r.flagE with
  | false, false => .asmMid r
  | false, true => .asmEnd r
  | true, false => .asmStart r
  | true, true => .asmSingle r

/-- The row an ASM operand matches, by the table's precedence: ASM.IGNORED over every other row, ASM.MALFORMED over
the flag patterns, then the modifiers, then the framing row. -/
def asmRow (c : Params) (r : Report) : Instr :=
  if r.kindByte ≠ c.ridCmdIn then .asmIgnored r
  else if 61 < r.len then .asmMalformed r
  else if r.flagD then .asmDevinfo r
  else if r.flagF then .asmHcf r
  else framingRow r

/-- A report taken from the queue: kind INPUT goes to INP, every other kind to ASM (44_device_session_host.md
R211, R213). -/
def decodeReport (c : Params) (r : Report) : Instr :=
  match r.kind c with
  | .input => .inpReport r
  | .command => asmRow c r
  | .unknown => asmRow c r

/-! ### A completed payload (R90, R219) -/

/-- Dispatch by the echo byte over the closed enumeration of the nine tags (R219). -/
def decodeTag (t : Tags) (b : Byte) (body : List Byte) : Except DecodeError Instr :=
  if b = t.getDeviceInfo then .ok (.tagGetDeviceInfo body)
  else if b = t.getConfig then .ok (.tagGetConfig body)
  else if b = t.getConfigV5 then .ok (.tagGetConfigV5 body)
  else if b = t.writeConfig then .ok (.tagWriteConfig body)
  else if b = t.writeConfigV5 then .ok (.tagWriteConfigV5 body)
  else if b = t.factoryReset then .ok (.tagFactoryReset body)
  else if b = t.setLightStrip then .ok (.tagSetLightStrip body)
  else if b = t.forceRecalibration then .ok (.tagForceRecalibration body)
  else if b = t.getSensorTestData then .ok (.tagGetSensorTestData body)
  else .error (.unknownTag (some b))

/-- A payload: an empty one has no tag (R219). -/
def decodePayload (c : Params) : List Byte → Except DecodeError Instr
  | [] => .error (.unknownTag none)
  | b :: body => decodeTag c.tags b body

/-- The decoder. -/
def decode (c : Params) : Issue → Except DecodeError Instr
  | .op bytes => decodeOp bytes
  | .report r => .ok (decodeReport c r)
  | .payload p => decodePayload c p

/-! ### The encoder -/

/-- The place and bytes of an instruction: the op code of R85 and the operand bytes (R88), the raw report, or the
payload led by its tag. -/
def encode (c : Params) : Instr → Issue
  | .enc cmd => .op (0x00 :: cmd)
  | .asm r => .op (0x01 :: r.val)
  | .aclr => .op [0x02]
  | .inp r => .op (0x03 :: r.val)
  | .eclr m => .op [0x04, m]
  | .cfgd b => .op (0x05 :: b)
  | .cfge record => .op (0x06 :: bytesOfWords (recordValues record))
  | .cfgu p => .op (0x07 :: p)
  | .idd p => .op (0x08 :: p)
  | .diag w => .op (0x09 :: bytesOfWords w)
  | .asmMid r => .report r
  | .asmEnd r => .report r
  | .asmStart r => .report r
  | .asmSingle r => .report r
  | .asmMalformed r => .report r
  | .asmIgnored r => .report r
  | .asmHcf r => .report r
  | .asmDevinfo r => .report r
  | .inpReport r => .report r
  | .tagGetDeviceInfo body => .payload (c.tags.getDeviceInfo :: body)
  | .tagGetConfig body => .payload (c.tags.getConfig :: body)
  | .tagGetConfigV5 body => .payload (c.tags.getConfigV5 :: body)
  | .tagWriteConfig body => .payload (c.tags.writeConfig :: body)
  | .tagWriteConfigV5 body => .payload (c.tags.writeConfigV5 :: body)
  | .tagFactoryReset body => .payload (c.tags.factoryReset :: body)
  | .tagSetLightStrip body => .payload (c.tags.setLightStrip :: body)
  | .tagForceRecalibration body => .payload (c.tags.forceRecalibration :: body)
  | .tagGetSensorTestData body => .payload (c.tags.getSensorTestData :: body)

/-! ### A word of spec/opcode_table.json -/

/-- The least operand size with which the port carries an operation whole: the fixed sizes of ASM, INP, ECLR,
CFGE, and the well-formed sizes of CFGD, CFGU, IDD, DIAG. -/
def operandSize (op : Nat) : Nat :=
  match op with
  | 0x1 => 64
  | 0x3 => 64
  | 0x4 => 1
  | 0x5 => 250
  | 0x6 => 432
  | 0x7 => 2
  | 0x8 => 23
  | 0x9 => 160
  | _ => 0

/-- The `nbits` low bits of `w` as bytes, first byte first, at least one. -/
def tableBytes (nbits w : Nat) : List Byte :=
  (List.range (max 1 ((nbits + 7) / 8))).map fun i => BitVec.ofNat 8 (w >>> (8 * i))

/-- Where a table word stands (log 5). The table matches its OP rows on the select of the port, its TAG rows on
byte 0 of a payload and its RPT rows on byte 1 of a report, so one number can be a word of several rows. A byte
below 16 is read as the select with an operand of zeros; one of the nine suggested tags as byte 0 of a payload;
any other byte as the flags of a command-channel report of length 0. -/
def tableIssue (nbits w : Nat) : Issue :=
  match tableBytes nbits w with
  | [] => .op []
  | b :: rest =>
    if b.toNat < 16 then .op (b :: rest ++ zeros (operandSize b.toNat - rest.length))
    else if b ∈ Config.suggestedTags.toList then .payload (b :: rest)
    else .report (Report.build Config.suggested.ridCmdIn b 0 [])

/-- The instruction the decoder reads from a word of spec/opcode_table.json, under the suggested parameters. -/
def decodeTableWord (nbits w : Nat) : Option Instr :=
  match decode Config.suggested (tableIssue nbits w) with
  | .ok i => some i
  | .error _ => none

end Sys2Proof
end

