-- ==== Sys2Proof/Machine/Flags.lean ====
section
/-! DEFINITION. The event register EVT (10_state.md R26), the step flags (R25) and the error codes
(60_exceptions.md R240). -/

namespace Sys2Proof.Machine

/-! ### EVT -/

/-- EVT bit 0, MALFORMED (R26). -/
def evtMalformed : Byte := 0x01

/-- EVT bit 1, RESYNC (R26). -/
def evtResync : Byte := 0x02

/-- EVT bit 2, HCF (R26). -/
def evtHcf : Byte := 0x04

/-- EVT bit 3, OVERFLOW, a fault bit (R26, R250). -/
def evtOverflow : Byte := 0x08

/-- Sets an event: bits are sticky (R26). -/
def evtSet (evt bit : Byte) : Byte := evt ||| bit

/-- `EVT & ~(m & 0x07)` (41_packet_assembler.md R133): OVERFLOW and bits 4 to 7 are out of the mask's reach. -/
def evtClear (evt mask : Byte) : Byte := evt &&& ~~~(mask &&& 0x07)

end Sys2Proof.Machine

namespace Sys2Proof

/-! ### Step results -/

/-- The result of a step that did nothing but say why: all five flags 0, INCOMPLETE (R130). -/
def StepResult.dropped (k : Status) : StepResult where
  outcome := .incomplete
  status := k
  ignored := false
  malformed := false
  resync := false
  hostCmdFinished := false
  deviceInfo := false

/-- The result for a report of another kind (R121). -/
def StepResult.ofIgnored : StepResult := { StepResult.dropped .ok with ignored := true }

/-- The result for a malformed report (R122). -/
def StepResult.ofMalformed (k : Status) : StepResult := { StepResult.dropped k with malformed := true }

/-! ### Error codes (R240) -/

/-- The numeric code of a status (R240). -/
def Status.code : Status → Nat
  | .ok => 0
  | .malformedReport _ => 1
  | .timeout => 3
  | .connectionNotFound => 4
  | .invalidConfigPacket => 5
  | .rateLimited _ => 6
  | .badLength _ => 7
  | .unknownOpcode _ => 8
  | .bufferOverflow => 9

/-- The codes of every error kind one ASM step reports: its status when not OK, and 2, Resynchronization, which
is the `resync` bit and never a status (R240, R242). -/
def StepResult.errorCodes (r : StepResult) : List Nat :=
  (if r.status = .ok then [] else [r.status.code]) ++ (if r.resync then [2] else [])

end Sys2Proof
end

