-- ==== Sys2Proof/Machine/State.lean ====
section
/-! DEFINITION. The machine's state, its inputs, the reasons a step can stop, and the state after reset. -/

namespace Sys2Proof.Machine

/-- What the last operation returned on the operation port (30_encoding.md R85, 00_scope.md R12). -/
inductive PortResult where
  /-- No operation has returned, or the operation returns nothing (ACLR, ECLR). -/
  | none
  /-- ENC: the list of reports. -/
  | reports (rs : List Report)
  /-- ASM: the step result. -/
  | step (r : StepResult)
  /-- INP: the ignored bit and the nine panel bits. -/
  | input (ignored : Bool) (pressed : BitVec 9)
  /-- CFGD, CFGU: status and record. -/
  | config (status : Status) (record : ConfigRecord)
  /-- CFGE: the 250 bytes. -/
  | image (c : Bytes 250)
  /-- IDD: status and identity. -/
  | identity (status : Status) (id : DeviceIdentity)
  /-- DIAG: status and frame. -/
  | frame (status : Status) (f : DiagnosticFrame)
  /-- Dispatch of a response whose tag has no body layout in the source (44_device_session_host.md R219). -/
  | recognised (payload : List Byte)
  /-- Dispatch failed closed (R219, 60_exceptions.md R249). -/
  | failed (status : Status)
deriving DecidableEq, Repr

/-- What the last host procedure returned (44_device_session_host.md R213, R216, R217). -/
inductive HostReturn where
  | none
  | ack
  | payload (p : List Byte)
  | error (status : Status)
  | connected
deriving DecidableEq, Repr

/-- What the reader's last call `read(timeout)` returned (R210). -/
inductive ReadReturn where
  /-- No call has returned since the last one began. -/
  | none
  | report (r : Report)
  | empty
deriving DecidableEq, Repr

/-- SESSION (10_state.md R27, 44_device_session_host.md R212). -/
inductive Session where
  | idle
  | awaitingResponse
  | complete
  | timedOut
  | resynchronized
deriving DecidableEq, Repr

/-- The command outstanding while send_and_wait waits (R213). -/
structure Wait where
  cmd : List Byte
  ackOnly : Bool
  deadline : Nat
deriving DecidableEq, Repr

/-- One input of the machine. The list of inputs still to come says which agent moves next (00_scope.md R15). -/
inductive Event where
  /-- The host presents an operation: op byte and operand bytes (R85, R88). -/
  | issue (bytes : List Byte)
  /-- The host calls send_and_wait (R213); `counts` are what the channel's writes return (R210). -/
  | sendAndWait (cmd : List Byte) (ackOnly : Bool) (timeout : Nat) (counts : List Nat)
  /-- The host calls write_config (R216) for a device of this firmware version (R223). -/
  | writeConfig (firmware : Word) (record : ConfigRecord) (timeout : Nat) (counts : List Nat)
  /-- The host reads the configuration with the variant its device's firmware version asks for (R223). -/
  | getConfig (firmware : Word) (timeout : Nat) (counts : List Nat)
  /-- The reader calls `read(timeout)` (R210, R211). -/
  | read (timeout : Nat)
  /-- A report arrives at the channel: the device's doing (00_scope.md R15, 93_implementation_defined.md A17). -/
  | arrive (r : Report)
  /-- A call of `read` whose timeout has elapsed returns "empty" (R210). -/
  | readEmpty
  /-- The session takes the next queued report, or finds its deadline passed (R213, R221). -/
  | take
  /-- send_and_wait returns to its caller (R212). -/
  | sessionReturn
  /-- The host dispatches the payload send_and_wait returned (R219). -/
  | dispatch
  /-- The clock advances (R256). -/
  | tick (ms : Nat)
  /-- Connection establishment, failing `failures` times before it would succeed (R217). -/
  | connect (failures : Nat)
  /-- The host calls set_blocking (R210). -/
  | setBlocking (b : Bool)
  /-- Reset (70_reset_and_hazards.md R270). -/
  | reset
deriving DecidableEq, Repr

/-- The whole machine. `abuf` and `evt` are the PE's complete persistent state (10_state.md R20); `session` and
`tlast` are the host's (R27); the next eight are the host's, the reader's and the channel's of
44_device_session_host.md; `result`, `ret` and `lastRead` show what was returned; `events` is the input; `cfg` the
instance's parameters. -/
structure State where
  /-- ABUF, the AssemblyBuffer (R21). -/
  abuf : List Byte
  /-- EVT, the event register (R26). -/
  evt : Byte
  /-- SESSION (R27). -/
  session : Session
  /-- TLAST (R27). -/
  tlast : Option Nat
  /-- The outstanding command, while a wait lasts (R213). -/
  wait : Option Wait
  /-- The completed payload send_and_wait returned, until it is dispatched (R219). -/
  pending : Option (List Byte)
  /-- The bounded queue from reader to session, oldest first (R221). -/
  queue : List Report
  /-- The reports that have arrived at the channel and that no `read` has returned yet, oldest first (R210; "in the
  transport", 10_state.md R29). -/
  channel : List Report
  /-- The deadline of the reader's outstanding `read(timeout)` (R210). -/
  reading : Option Nat
  /-- The reports written to the channel, oldest first (R210). -/
  sent : List Report
  /-- The channel's blocking mode (R210), which no source gives an effect on `read` or `write` (log 20). -/
  blocking : Bool
  /-- The clock `now()` in milliseconds (R256). -/
  now : Nat
  /-- The last operation's result. -/
  result : PortResult
  /-- The last host procedure's return value. -/
  ret : HostReturn
  /-- The reader's last return value. -/
  lastRead : ReadReturn
  /-- The inputs still to come, next first. -/
  events : List Event
  /-- The parameters (00_scope.md R8), fixed for the instance (R31). -/
  cfg : Params
deriving DecidableEq, Repr

/-- No fault exists: an error kind is a value an operation returns, and "no error kind crashes the process"
(60_exceptions.md R246, R254). Nothing raises one. -/
inductive Fault where
deriving DecidableEq, Repr

/-- The situations the spec gives no meaning. All are safe: the model stops where a real host would have broken
its contract or an implementation would have refused. -/
inductive Refusal where
  /-- An instruction without a meaning in exec; no arm answers with it. Safe. -/
  | notModelled (mnemonic : String)
  /-- ENC, and host procedures through it: the command is longer than a finite CMD_MAX (40_command_encoder.md R106,
  93_implementation_defined.md A13). Safe. -/
  | commandTooLong (length : Nat)
  /-- The port carries what it cannot carry, for the decoder's reason: no op byte, an op wider than 4 bits, an
  unassigned op (30_encoding.md R86), an operand of another size (20_memory.md R44), half a word, a value outside
  its field's width (42_config_codec.md R150). Raised by the presentation of an operation. Safe. -/
  | rejected (why : DecodeError)
  /-- A host procedure called while a command is outstanding (44_device_session_host.md R220, A14). Safe. -/
  | commandInFlight
  /-- A channel write returned a count other than 64, or did not return (A18). Safe. -/
  | shortWrite
  /-- A report delivered to a full queue (A18). Safe. -/
  | queueFull
  /-- `read` called while the reader's earlier call has not returned (70_reset_and_hazards.md R277, A15). Safe. -/
  | readInFlight
deriving DecidableEq, Repr

/-- The machine right after reset (10_state.md R31), with nothing queued, sent or to come, and the suggested
parameters (log 1, 2, 3). -/
def State.reset : State where
  abuf := []
  evt := 0x00
  session := .idle
  tlast := none
  wait := none
  pending := none
  queue := []
  channel := []
  reading := none
  sent := []
  blocking := false
  now := 0
  result := .none
  ret := .none
  lastRead := .none
  events := []
  cfg := Config.suggested

end Sys2Proof.Machine
end

