-- ==== Sys2Proof/Machine/Ops.lean ====
section
/-! DEFINITION. The named operations on the state: the return value, ABUF, EVT, raising an error and the shared
framing steps of the assembler. -/

namespace Sys2Proof.Machine

/-- `return v`: the operation's result on the operation port (00_scope.md R12). -/
def State.deliver (s : State) (v : PortResult) : State := { s with result := v }

/-- `ABUF <- b` (R12). -/
def State.setAbuf (s : State) (b : List Byte) : State := { s with abuf := b }

/-- `EVT[i] <- 1`, the bit given by its mask (10_state.md R26). -/
def State.setEvt (s : State) (bit : Byte) : State := { s with evt := evtSet s.evt bit }

/-- EVT under ECLR (41_packet_assembler.md R133). -/
def State.clearEvt (s : State) (mask : Byte) : State := { s with evt := evtClear s.evt mask }

/-- `raise K(info)` with the fallback the rule names (60_exceptions.md R246): the operation ends with the status,
its value and the fallback as its result. There is "no vector, no handler, no saved state, no change of mode, no
control transfer", and nothing to return from (R254); state changes made before stand. -/
def State.raise (s : State) (k : Status) (fallback : Status → PortResult) : State := s.deliver (fallback k)

/-- Framing state: `len(ABUF) > 0` (10_state.md R24). -/
def State.accumulating (s : State) : Bool := !s.abuf.isEmpty

/-- Whether a start flag resynchronizes (41_packet_assembler.md R123). -/
def State.resyncs (s : State) (start : Bool) : Bool := start && s.accumulating

/-- Step 2 of ASM (R123). -/
def State.restart (s : State) (start : Bool) : State :=
  if s.resyncs start then (s.setAbuf []).setEvt evtResync else s

/-- `len > BUF_CAP`; never when BUF_CAP is unbounded (R130). -/
def Params.overCap (c : Params) (len : Nat) : Bool := c.bufCap.any fun cap => decide (cap < len)

/-- EVT.HCF is recorded when bit F is set (R126). -/
def State.recordHcf (s : State) (hcf : Bool) : State := if hcf then s.setEvt evtHcf else s

/-- Steps 4 to 6 of ASM (R125 to R127) once `buf` is the buffer after the append. -/
def State.finish (s : State) (buf : List Byte) (done resync hcf devinfo : Bool) : State :=
  ((s.setAbuf (if done then [] else buf)).recordHcf hcf).deliver <| .step
    { outcome := if done then .complete buf else .incomplete
      status := .ok
      ignored := false
      malformed := false
      resync := resync
      hostCmdFinished := hcf
      deviceInfo := devinfo }

/-- Steps 2 to 6 of ASM on a well-formed command-channel report with the four flags and the payload slice given
(41_packet_assembler.md R128 from its `rs` line on). -/
def State.assemble (s : State) (start done hcf devinfo : Bool) (data : List Byte) : State :=
  if Params.overCap s.cfg ((s.restart start).abuf.length + data.length) then
    ((s.restart start).setEvt evtOverflow).raise .bufferOverflow fun k => .step (StepResult.dropped k)
  else
    (s.restart start).finish ((s.restart start).abuf ++ data) done (s.resyncs start) hcf devinfo

/-- Step 0 of ASM (R121): nothing but the result. -/
def State.ignore (s : State) : State := s.deliver (.step StepResult.ofIgnored)

/-- Step 1 of ASM (R122): the report is dropped and EVT.MALFORMED set. -/
def State.dropMalformed (s : State) (length : Byte) : State :=
  (s.setEvt evtMalformed).raise (.malformedReport length) fun k => .step (StepResult.ofMalformed k)

/-- Runs a second operation after a first that answered a next state. -/
def andThen (o : Host.Outcome State Fault Refusal) (f : State → Host.Outcome State Fault Refusal) :
    Host.Outcome State Fault Refusal :=
  match o with
  | .next s => f s
  | .fault r => .fault r
  | .refused r => .refused r

end Sys2Proof.Machine
end

