-- ==== Sys2Proof/Machine/Assembler.lean ====
section
/-! DEFINITION. The PacketAssembler: operations ASM, ACLR, INP, ECLR and the report patterns of the opcode table
(41_packet_assembler.md). -/

namespace Sys2Proof.Machine

/-- ASM, "the whole step in order" (R128). -/
def execAsm (r : Report) (s : State) : Host.Outcome State Fault Refusal :=
  if r.kindByte ≠ s.cfg.ridCmdIn then .next s.ignore
  else if 61 < r.len then .next (s.dropMalformed (readByte r.val 2))
  else .next (s.assemble r.flagS r.flagE r.flagF r.flagD r.payload)

/-- ACLR (R131): `ABUF <- []`, no event. -/
def execAclr (s : State) : Host.Outcome State Fault Refusal := .next ((s.setAbuf []).deliver .none)

/-- The nine panel bits of a mask: bit i is panel i, bits 15..9 are discarded (R132). -/
def pressedPanels (mask : Word) : BitVec 9 := mask.setWidth 9

/-- INP (R132). -/
def execInp (r : Report) (s : State) : Host.Outcome State Fault Refusal :=
  if r.kindByte ≠ s.cfg.ridInput then .next (s.deliver (.input true 0))
  else .next (s.deliver (.input false (pressedPanels r.mask)))

/-- ECLR (R133). -/
def execEclr (mask : Byte) (s : State) : Host.Outcome State Fault Refusal :=
  .next ((s.clearEvt mask).deliver .none)

/-! ### The rows of the table for a report given to ASM (30_encoding.md R91)

Each row's bits are fixed by the row; the bits its mask leaves open are read from the report. -/

/-- ASM.MID (R124): S = 0, E = 0: append, INCOMPLETE. -/
def execAsmMid (r : Report) (s : State) : Host.Outcome State Fault Refusal :=
  .next (s.assemble false false r.flagF r.flagD r.payload)

/-- ASM.END (R125): S = 0, E = 1: append, then COMPLETE(ABUF), ABUF cleared. -/
def execAsmEnd (r : Report) (s : State) : Host.Outcome State Fault Refusal :=
  .next (s.assemble false true r.flagF r.flagD r.payload)

/-- ASM.START (R123): S = 1, E = 0: clear ABUF first when non-empty, append, INCOMPLETE. -/
def execAsmStart (r : Report) (s : State) : Host.Outcome State Fault Refusal :=
  .next (s.assemble true false r.flagF r.flagD r.payload)

/-- ASM.SINGLE (R128): S = 1, E = 1: clear ABUF first when non-empty, append, COMPLETE. -/
def execAsmSingle (r : Report) (s : State) : Host.Outcome State Fault Refusal :=
  .next (s.assemble true true r.flagF r.flagD r.payload)

/-- ASM.MALFORMED (R122): dropped, EVT.MALFORMED set, flags not acted on. -/
def execAsmMalformed (r : Report) (s : State) : Host.Outcome State Fault Refusal :=
  .next (s.dropMalformed (readByte r.val 2))

/-- ASM.IGNORED (R121): no state change, ignored = 1. -/
def execAsmIgnored (_r : Report) (s : State) : Host.Outcome State Fault Refusal := .next s.ignore

/-- ASM.HCF (R126): F = 1, framing as with the bit clear. -/
def execAsmHcf (r : Report) (s : State) : Host.Outcome State Fault Refusal :=
  .next (s.assemble r.flagS r.flagE true r.flagD r.payload)

/-- ASM.DEVINFO (R127): D = 1, framing as with the bit clear. -/
def execAsmDevinfo (r : Report) (s : State) : Host.Outcome State Fault Refusal :=
  .next (s.assemble r.flagS r.flagE r.flagF true r.payload)

/-- INP.REPORT (R132): the report's byte 0 is RID_INPUT. -/
def execInpReport (r : Report) (s : State) : Host.Outcome State Fault Refusal :=
  .next (s.deliver (.input false (pressedPanels r.mask)))

end Sys2Proof.Machine
end

