-- ==== Sys2Proof/Machine/Codec.lean ====
section
/-! DEFINITION. The ConfigCodec: operations CFGD, CFGE, CFGU, IDD (42_config_codec.md). -/

namespace Sys2Proof.Machine

/-- The default record `unpack(CFG_DEFAULT)` (R158, R176, R177). -/
def defaultRecord (c : Params) : ConfigRecord := unpack c.cfgDefault

/-- CFGD on a state (R151); a wrong length raises BadLength beside the default record (R158). -/
def decodeConfig (b : List Byte) (s : State) : State :=
  if h : b.length = 250 then s.deliver (.config .ok (unpack ⟨b, h⟩))
  else s.raise (.badLength b.length) fun k => .config k (defaultRecord s.cfg)

/-- CFGD (R151). -/
def execCfgd (b : List Byte) (s : State) : Host.Outcome State Fault Refusal := .next (decodeConfig b s)

/-- CFGE (R156). -/
def execCfge (record : ConfigRecord) (s : State) : Host.Outcome State Fault Refusal :=
  .next (s.deliver (.image (pack record)))

/-- `data[0 : m] ++ dflt[m : 250]` with `m = min(len(data), 250)`: the truncated or extended record of R175. -/
def overlay (dflt : Bytes 250) (data : List Byte) : Bytes 250 :=
  ⟨data.take 250 ++ dflt.val.drop (data.take 250).length, by
    have := dflt.property
    simp only [List.length_append, List.length_drop, List.length_take]; omega⟩

/-- CFGU on a state (R174 to R176). -/
def unwrapConfig (p : List Byte) (s : State) : State :=
  if p.length < 2 then s.raise .invalidConfigPacket fun k => .config k (defaultRecord s.cfg)
  else if p.length < 2 + (readByte p 1).toNat then
    s.raise .invalidConfigPacket fun k => .config k (defaultRecord s.cfg)
  else
    s.deliver (.config .ok (unpack (overlay s.cfg.cfgDefault ((p.drop 2).take (readByte p 1).toNat))))

/-- CFGU (R174). -/
def execCfgu (p : List Byte) (s : State) : Host.Outcome State Fault Refusal := .next (unwrapConfig p s)

/-- The identity in a payload of at least 23 bytes (R170 to R173). -/
def identityOf (p : List Byte) : DeviceIdentity where
  serial := readBytes p 4 16
  serialHex := hexUpper (readBytes p 4 16)
  firmwareVersion := readWord p 20
  player := (readByte p 2).toNat + 1

/-- The identity returned with BadLength: "all-zero serial, firmware_version 0 and player 1" (R170). Its
serial_hex is the rendering of that serial (DEDUCED, log 7). -/
def noIdentity : DeviceIdentity where
  serial := Vec.tab 16 fun _ => 0
  serialHex := hexUpper (Vec.tab 16 fun _ => 0 : Bytes 16)
  firmwareVersion := 0
  player := 1

/-- IDD on a state (R170). -/
def decodeIdentity (p : List Byte) (s : State) : State :=
  if p.length < 23 then s.raise (.badLength p.length) fun k => .identity k noIdentity
  else s.deliver (.identity .ok (identityOf p))

/-- IDD (R170). -/
def execIdd (p : List Byte) (s : State) : Host.Outcome State Fault Refusal := .next (decodeIdentity p s)

end Sys2Proof.Machine
end

