-- ==== Sys2Proof/Machine/Diagnostic.lean ====
section
/-! DEFINITION. The DiagnosticDecoder: operation DIAG (43_diagnostic_decoder.md). -/

namespace Sys2Proof.Machine

/-- Presence: `d[0] & 0x07 = 0x02`, the signature (0,1,0) (R194). -/
def signaturePresent (d : Bytes 10) : Bool := decide (readByte d.val 0 &&& 0x07 = 0x02)

/-- The readings of a present panel (R195 to R197). -/
def panelDiagOf (d : Bytes 10) : PanelDiag where
  badSensor := (readByte d.val 0).extractLsb' 3 4
  sensor := Vec.tab 4 fun i => s16 (readWord d.val (1 + 2 * i))
  dip := (readByte d.val 9).extractLsb' 0 4
  badSensorJumper := (readByte d.val 9).extractLsb' 4 4

/-- `parse` (R193 to R198): absent unless the signature stands. -/
def parsePanel (d : Bytes 10) : Option PanelDiag :=
  if signaturePresent d then some (panelDiagOf d) else none

/-- The frame of at least 80 words (R190). -/
def diagnosticFrame (w : List Word) : DiagnosticFrame := Vec.tab 9 fun p => parsePanel (panelRecord w p)

/-- The frame in which all nine panels are absent (R199). -/
def absentFrame : DiagnosticFrame := Vec.tab 9 fun _ => none

/-- DIAG on a state (R190); fewer than 80 words raise BadLength (R199). -/
def decodeDiagnostic (w : List Word) (s : State) : State :=
  if w.length < 80 then s.raise (.badLength w.length) fun k => .frame k absentFrame
  else s.deliver (.frame .ok (diagnosticFrame w))

/-- DIAG (R190). -/
def execDiag (w : List Word) (s : State) : Host.Outcome State Fault Refusal := .next (decodeDiagnostic w s)

end Sys2Proof.Machine
end

