-- ==== Sys2Proof/Machine/Encoder.lean ====
section
/-! DEFINITION. The CommandEncoder: operation ENC (40_command_encoder.md). -/

namespace Sys2Proof.Machine

/-- The chunk count `k(n)` (R101). -/
def chunkCount (n : Nat) : Nat := if n = 0 then 1 else (n + 60) / 61

/-- The flags byte of report `i` of `k` (R102, 30_encoding.md R77). -/
def chunkFlags (i k : Nat) : Byte :=
  (if i = 0 then 0x04 else 0x00) ||| (if i + 1 = k then 0x01 else 0x00)

/-- Chunk `i` of a command: `cmd[61*i : 61*i + m]` (R102). -/
def chunk (cmd : List Byte) (i : Nat) : List Byte := (cmd.drop (61 * i)).take 61

/-- `rep(cmd, i)` (R102). -/
def encodeReport (c : Params) (cmd : List Byte) (i : Nat) : Report :=
  Report.build c.ridCmdOut (chunkFlags i (chunkCount cmd.length)) (BitVec.ofNat 8 (chunk cmd i).length) (chunk cmd i)

/-- The list of reports `ENC(cmd)` returns (R100). -/
def encodeCommand (c : Params) (cmd : List Byte) : List Report :=
  (List.range (chunkCount cmd.length)).map (encodeReport c cmd)

/-- Whether a finite CMD_MAX refuses the command (R106). -/
def tooLong (c : Params) (cmd : List Byte) : Bool := c.cmdMax.any fun m => decide (m < cmd.length)

/-- ENC (R100): pure but for its result; a command over a finite CMD_MAX is refused "before producing any
report" (R106, 93_implementation_defined.md A13). -/
def execEnc (cmd : List Byte) (s : State) : Host.Outcome State Fault Refusal :=
  if tooLong s.cfg cmd then .refused (.commandTooLong cmd.length)
  else .next (s.deliver (.reports (encodeCommand s.cfg cmd)))

end Sys2Proof.Machine
end

