-- ==== Sys2Proof/Machine/Tags.lean ====
section
/-! DEFINITION. The response dispatch on the nine command tags (30_encoding.md R90, 44_device_session_host.md R219):
each tag's handler on the completed payload, whose byte 0 is the tag. -/

namespace Sys2Proof.Machine

/-- A tag whose response has "no response body defined in the source" (R219): recognised, given to no decoder. -/
def State.recognise (s : State) (payload : List Byte) : State := s.deliver (.recognised payload)

/-- Where the host locates the diagnostic stream in a response payload: not in the source (43_diagnostic_decoder.md
R191), a parameter (log 9). -/
def streamStart (c : Params) (payload : List Byte) : Nat :=
  match c.streamRule with
  | .at offset => offset
  | .other n => Config.freeStreamStart n payload

/-- TAG_GET_DEVICE_INFO to IDD (R219). -/
def execTagGetDeviceInfo (body : List Byte) (s : State) : Host.Outcome State Fault Refusal :=
  .next (decodeIdentity (s.cfg.tags.getDeviceInfo :: body) s)

/-- TAG_GET_CONFIG, legacy: recognised; the legacy record is out of scope (R223, 00_scope.md R6). -/
def execTagGetConfig (body : List Byte) (s : State) : Host.Outcome State Fault Refusal :=
  .next (s.recognise (s.cfg.tags.getConfig :: body))

/-- TAG_GET_CONFIG_V5 to CFGU (R219). -/
def execTagGetConfigV5 (body : List Byte) (s : State) : Host.Outcome State Fault Refusal :=
  .next (unwrapConfig (s.cfg.tags.getConfigV5 :: body) s)

/-- TAG_WRITE_CONFIG, legacy: recognised; the legacy record is out of scope (R223, 00_scope.md R6). -/
def execTagWriteConfig (body : List Byte) (s : State) : Host.Outcome State Fault Refusal :=
  .next (s.recognise (s.cfg.tags.writeConfig :: body))

/-- TAG_WRITE_CONFIG_V5 to CFGU (R219). -/
def execTagWriteConfigV5 (body : List Byte) (s : State) : Host.Outcome State Fault Refusal :=
  .next (unwrapConfig (s.cfg.tags.writeConfigV5 :: body) s)

/-- TAG_FACTORY_RESET: no response body defined (R219); what the command does inside the device is out of scope
(00_scope.md R6). -/
def execTagFactoryReset (body : List Byte) (s : State) : Host.Outcome State Fault Refusal :=
  .next (s.recognise (s.cfg.tags.factoryReset :: body))

/-- TAG_SET_LIGHT_STRIP: no response body defined (R219). -/
def execTagSetLightStrip (body : List Byte) (s : State) : Host.Outcome State Fault Refusal :=
  .next (s.recognise (s.cfg.tags.setLightStrip :: body))

/-- TAG_FORCE_RECALIBRATION: no response body defined (R219). -/
def execTagForceRecalibration (body : List Byte) (s : State) : Host.Outcome State Fault Refusal :=
  .next (s.recognise (s.cfg.tags.forceRecalibration :: body))

/-- TAG_GET_SENSOR_TEST_DATA to DIAG "after the host has located the stream" (R219, R191). DESIGN CHOICE (log 9): the
stream is every byte from its start to the end of the payload, and no length field is read, where no source gives
the response a header or a length. -/
def execTagGetSensorTestData (body : List Byte) (s : State) : Host.Outcome State Fault Refusal :=
  .next (decodeDiagnostic
    (wordsOfBytes ((s.cfg.tags.getSensorTestData :: body).drop
      (streamStart s.cfg (s.cfg.tags.getSensorTestData :: body)))) s)

end Sys2Proof.Machine
end

