-- ==== Sys2Proof/Machine/Dispatch.lean ====
section
/-! DEFINITION. One arm for each constructor of Instr, each a call of its meaning. -/

namespace Sys2Proof.Machine

def exec (i : Instr) (s : State) : Host.Outcome State Fault Refusal :=
  match i with
  | .enc cmd => Sys2Proof.Machine.execEnc cmd s
  | .asm r => Sys2Proof.Machine.execAsm r s
  | .aclr => Sys2Proof.Machine.execAclr s
  | .inp r => Sys2Proof.Machine.execInp r s
  | .eclr mask => Sys2Proof.Machine.execEclr mask s
  | .cfgd b => Sys2Proof.Machine.execCfgd b s
  | .cfge record => Sys2Proof.Machine.execCfge record s
  | .cfgu p => Sys2Proof.Machine.execCfgu p s
  | .idd p => Sys2Proof.Machine.execIdd p s
  | .diag w => Sys2Proof.Machine.execDiag w s
  | .asmMid r => Sys2Proof.Machine.execAsmMid r s
  | .asmEnd r => Sys2Proof.Machine.execAsmEnd r s
  | .asmStart r => Sys2Proof.Machine.execAsmStart r s
  | .asmSingle r => Sys2Proof.Machine.execAsmSingle r s
  | .asmMalformed r => Sys2Proof.Machine.execAsmMalformed r s
  | .asmIgnored r => Sys2Proof.Machine.execAsmIgnored r s
  | .asmHcf r => Sys2Proof.Machine.execAsmHcf r s
  | .asmDevinfo r => Sys2Proof.Machine.execAsmDevinfo r s
  | .inpReport r => Sys2Proof.Machine.execInpReport r s
  | .tagGetDeviceInfo body => Sys2Proof.Machine.execTagGetDeviceInfo body s
  | .tagGetConfig body => Sys2Proof.Machine.execTagGetConfig body s
  | .tagGetConfigV5 body => Sys2Proof.Machine.execTagGetConfigV5 body s
  | .tagWriteConfig body => Sys2Proof.Machine.execTagWriteConfig body s
  | .tagWriteConfigV5 body => Sys2Proof.Machine.execTagWriteConfigV5 body s
  | .tagFactoryReset body => Sys2Proof.Machine.execTagFactoryReset body s
  | .tagSetLightStrip body => Sys2Proof.Machine.execTagSetLightStrip body s
  | .tagForceRecalibration body => Sys2Proof.Machine.execTagForceRecalibration body s
  | .tagGetSensorTestData body => Sys2Proof.Machine.execTagGetSensorTestData body s

end Sys2Proof.Machine
end

