-- ==== Sys2Proof/Machine/Session.lean ====
section
/-! DEFINITION. The host side: DeviceSession's procedures over the operations of the port
(44_device_session_host.md). The host issues ENC, ASM, ACLR, ECLR and INP like any other operation: through
`exec`. -/

namespace Sys2Proof.Machine

/-! ### Instructions presented to the machine -/

/-- The host presents an operation on the port (30_encoding.md R85). -/
def issueOp (bytes : List Byte) (s : State) : Host.Outcome State Fault Refusal :=
  match decode s.cfg (.op bytes) with
  | .ok i => exec i s
  | .error e => .refused (.rejected e)

/-- UnknownOpcode: the payload is discarded without being given to any decoder (60_exceptions.md R249). -/
def unknownOpcode (echo : Option Byte) (s : State) : State := s.raise (.unknownOpcode echo) .failed

/-- The host dispatches the payload send_and_wait returned, if there is one (R219). -/
def dispatchPending (s : State) : Host.Outcome State Fault Refusal :=
  match s.pending with
  | none => .next s
  | some p =>
    match decode s.cfg (.payload p) with
    | .ok i => exec i { s with pending := none }
    | .error _ => .next (unknownOpcode p.head? { s with pending := none })

/-! ### Session states (R212, R224) -/

/-- send_and_wait returns: COMPLETE and TIMED_OUT go to IDLE (R212); RESYNCHRONIZED, which lasts for its step
only, goes back to AWAITING_RESPONSE (R224). -/
def State.settle (s : State) : State :=
  match s.session with
  | .complete => { s with session := .idle }
  | .timedOut => { s with session := .idle }
  | .resynchronized => { s with session := .awaitingResponse }
  | .idle => s
  | .awaitingResponse => s

/-! ### send_and_wait (R213) -/

/-- The predicate `is_ack` (R215). -/
def isAck (c : Params) (r : StepResult) : Bool :=
  match c.ackRule with
  | .hostCmdFinished => r.hostCmdFinished
  | .other n => Config.freeAck n r

/-- `accepts(cmd, p)`: `len(p) >= 1 and p[0] = cmd[0]` (R219). For an empty command, which has no `cmd[0]`, it is
free (log 8). -/
def accepts (cmd p : List Byte) : Bool :=
  match p, cmd with
  | [], _ => false
  | _ :: _, [] => Config.freeAcceptsEmpty p
  | b :: _, t :: _ => decide (b = t)

/-- The reports the last operation, an ENC, returned. -/
def State.encoded (s : State) : List Report :=
  match s.result with
  | .reports rs => rs
  | _ => []

/-- Writes reports in order and starts the wait (R213). A channel count other than 64, or a write that has not
returned, gives the run no meaning (93_implementation_defined.md A18). -/
def writeAndAwait (cmd : List Byte) (ackOnly : Bool) (timeout : Nat) (counts : List Nat) (s : State) :
    Host.Outcome State Fault Refusal :=
  if counts.take s.encoded.length = List.replicate s.encoded.length 64 then
    .next { s with
      sent := s.sent ++ s.encoded
      session := .awaitingResponse
      wait := some { cmd := cmd, ackOnly := ackOnly, deadline := s.now + timeout }
      ret := .none }
  else .refused .shortWrite

/-- send_and_wait up to its loop (R213): `ECLR 0x04`, `ENC cmd`, the writes, AWAITING_RESPONSE. Its precondition is
SESSION = IDLE; a second call while a command is outstanding has no meaning (R220). -/
def sendAndWait (cmd : List Byte) (ackOnly : Bool) (timeout : Nat) (counts : List Nat) (s : State) :
    Host.Outcome State Fault Refusal :=
  if s.settle.session ≠ .idle then .refused .commandInFlight
  else
    andThen (exec (.eclr evtHcf) s.settle) fun s1 =>
      andThen (exec (.enc cmd) s1) (writeAndAwait cmd ackOnly timeout counts)

/-- The wait ends with COMPLETE and a return value (R212, R213). -/
def State.complete (s : State) (v : HostReturn) : State :=
  { s with session := .complete, wait := none, ret := v }

/-- What the wait makes of a step result (R213, R222, R224): an acknowledgement or an accepted payload ends it;
anything else keeps waiting, and a resynchronization shows as RESYNCHRONIZED. -/
def afterStep (w : Wait) (res : StepResult) (s : State) : State :=
  if w.ackOnly && isAck s.cfg res then s.complete .ack
  else
    match res.outcome with
    | .complete p =>
      if accepts w.cmd p then { s.complete (.payload p) with pending := some p }
      else if res.resync then { s with session := .resynchronized } else s
    | .incomplete => if res.resync then { s with session := .resynchronized } else s

/-- What the session does after a report's operation: nothing while IDLE, where a completed payload is discarded
(R221, R222), and nothing after INP. -/
def afterReport (s : State) : State :=
  match s.wait, s.result with
  | some w, .step res => afterStep w res s
  | _, _ => s

/-- Timeout (R214): ACLR, TIMED_OUT, the error Timeout. -/
def timeOut (s : State) : Host.Outcome State Fault Refusal :=
  andThen (exec .aclr s) fun s1 =>
    .next { s1 with session := .timedOut, wait := none, ret := .error .timeout }

/-- The deadline of the outstanding wait has been reached: a report still in the queue then does not win
(60_exceptions.md R252). -/
def State.expired (s : State) : Bool := s.wait.any fun w => decide (w.deadline ≤ s.now)

/-- The session takes the next report and gives it to ASM or INP (R211, R221); an empty queue leaves it
waiting. -/
def takeQueued (s : State) : Host.Outcome State Fault Refusal :=
  match s.queue with
  | [] => .next s
  | r :: rest => andThen (exec (decodeReport s.cfg r) { s with queue := rest }) fun s1 => .next (afterReport s1)

/-- One turn of the session's loop (R213). -/
def sessionTake (s : State) : Host.Outcome State Fault Refusal :=
  if s.settle.expired then timeOut s.settle else takeQueued s.settle

/-! ### write_config (R216), the configuration variants (R223) and connecting (R217) -/

/-- The remaining wait when a configuration write falls inside the window, in 1..1000 (R216, R247). -/
def rateRemaining (s : State) : Option Nat :=
  match s.tlast with
  | none => none
  | some t => if s.now - t < 1000 then some (1000 - (s.now - t)) else none

/-- Whether a device takes the v5+ variants: "when the device's `firmware_version` is at least 5" (R223). -/
def takesV5 (firmware : Word) : Bool := decide (5 ≤ firmware.toNat)

/-- `build_write_cmd` (R218): the v5+ tag, the size byte 250 and the record's image, or any function. A device below
version 5 is sent the legacy tag (R223), behind which the request is free (log 21). -/
def buildWriteCmd (c : Params) (firmware : Word) (record : ConfigRecord) : List Byte :=
  match c.writeCmdRule with
  | .tagSizeRecord =>
    if takesV5 firmware then c.tags.writeConfigV5 :: 250 :: (pack record).val
    else c.tags.writeConfig :: Config.freeLegacyWrite record
  | .other n => Config.freeWriteCmd n firmware record

/-- write_config (R216): a rejected attempt performs no I/O and moves nothing. -/
def writeConfig (firmware : Word) (record : ConfigRecord) (timeout : Nat) (counts : List Nat) (s : State) :
    Host.Outcome State Fault Refusal :=
  match rateRemaining s with
  | some remaining => .next { s with ret := .error (.rateLimited remaining) }
  | none => sendAndWait (buildWriteCmd s.cfg firmware record) true timeout counts { s with tlast := some s.now }

/-- The get-config tag for a device's firmware version (R223). -/
def getConfigTag (c : Params) (firmware : Word) : Byte :=
  if takesV5 firmware then c.tags.getConfigV5 else c.tags.getConfig

/-- The get-config command of the chosen variant. The v5+ command is its tag and nothing more (95_test_vectors.md P4
step 1). DESIGN CHOICE (log 19): the legacy command is its tag alone too, where no source gives its body. DESIGN
CHOICE (log 19): the wait is for a payload (`ackOnly` false), where no source says which commands expect an
acknowledgement only. -/
def getConfig (firmware : Word) (timeout : Nat) (counts : List Nat) (s : State) :
    Host.Outcome State Fault Refusal :=
  sendAndWait [getConfigTag s.cfg firmware] false timeout counts s

/-- Connection establishment by the external collaborator (R217): at most CONNECT_RETRIES attempts. -/
def connect (failures : Nat) (s : State) : State :=
  { s with ret := if failures < s.cfg.connectRetries then .connected else .error .connectionNotFound }

/-! ### The reader, the clock and reset -/

/-- `read` returns a report, and the reader puts it into the queue (R210, R211, R221); a full queue has no meaning
(A18). -/
def readReturns (r : Report) (s : State) : Host.Outcome State Fault Refusal :=
  if s.queue.length < s.cfg.queueCap then
    .next { s with queue := s.queue ++ [r], reading := none, lastRead := .report r }
  else .refused .queueFull

/-- The reader calls `read(timeout)` (R210): a report already at the channel is returned at once, otherwise the call
waits until its deadline. DESIGN CHOICE (log 20). -/
def startRead (timeout : Nat) (s : State) : Host.Outcome State Fault Refusal :=
  if s.reading.isSome then .refused .readInFlight
  else
    match s.channel with
    | r :: rest => readReturns r { s with channel := rest }
    | [] => .next { s with reading := some (s.now + timeout), lastRead := .none }

/-- A report arrives at the channel: within the timeout of an outstanding `read` that call returns it, otherwise the
channel holds it for a later call (R210). DESIGN CHOICE (log 20): the timeout takes in its last instant. -/
def arrive (r : Report) (s : State) : Host.Outcome State Fault Refusal :=
  if s.reading.any fun deadline => decide (s.now ≤ deadline) then readReturns r s
  else .next { s with channel := s.channel ++ [r] }

/-- "empty" when none arrived within the timeout (R210): an outstanding `read` returns it once its deadline has been
reached, and goes on waiting before (log 20). -/
def readEmpty (s : State) : State :=
  if s.reading.any fun deadline => decide (deadline ≤ s.now) then { s with reading := none, lastRead := .empty }
  else s

/-- Reset (70_reset_and_hazards.md R270): the state elements of 10_state.md R31 and the host's own working state;
the channel, the reader, the queue, the clock, the inputs and the parameters are not touched. -/
def resetPe (s : State) : State :=
  { s with abuf := [], evt := 0x00, session := .idle, tlast := none, wait := none, pending := none,
           result := .none, ret := .none }

/-- One input. -/
def handle (e : Event) (s : State) : Host.Outcome State Fault Refusal :=
  match e with
  | .issue bytes => issueOp bytes s
  | .sendAndWait cmd ackOnly timeout counts => sendAndWait cmd ackOnly timeout counts s
  | .writeConfig firmware record timeout counts => writeConfig firmware record timeout counts s
  | .getConfig firmware timeout counts => getConfig firmware timeout counts s
  | .read timeout => startRead timeout s
  | .arrive r => arrive r s
  | .readEmpty => .next (readEmpty s)
  | .take => sessionTake s
  | .sessionReturn => .next s.settle
  | .dispatch => dispatchPending s
  | .tick ms => .next { s with now := s.now + ms }
  | .connect failures => .next (connect failures s)
  | .setBlocking b => .next { s with blocking := b }
  | .reset => .next (resetPe s)

end Sys2Proof.Machine
end

