-- ==== Sys2Proof/Machine/Step.lean ====
section
/-! DEFINITION. One step: the next input. -/

namespace Sys2Proof.Machine

/-- One step takes the next input; with none the PE waits (70_reset_and_hazards.md R270, R281). -/
def step (s : State) : Host.Outcome State Fault Refusal :=
  match s.events with
  | [] => .next s
  | e :: rest => handle e { s with events := rest }

/-- Places an instruction where the next step reads it: an operation on the port, a raw report at the head of the
queue with an idle session that takes it, or a returned payload with its dispatch (log 2). -/
def State.present (s : State) (w : Issue) : State :=
  match w with
  | .op bytes => { s with events := .issue bytes :: s.events }
  | .report r => { s with session := .idle, wait := none, queue := r :: s.queue, events := .take :: s.events }
  | .payload p => { s with pending := some p, events := .dispatch :: s.events }

/-- `s` with a word of spec/opcode_table.json placed where it stands (`tableIssue`, log 5), so that the next step
runs it. -/
def State.withFetchWord (s : State) (nbits w : Nat) : State := s.present (tableIssue nbits w)

end Sys2Proof.Machine
end

