-- ==== Sys2Proof/Safety.lean ====
section
/-! DEFINITION. The terms claims about runs use: a clean end, the invariant, and a sequence of ASM operations. -/

namespace Sys2Proof

open Sys2Proof.Machine

/-- The bytes `r[3], ..., r[3+n-1]` of a report (R124). -/
def Report.slice (r : Report) : List Byte := (List.range r.len).map fun j => readByte r.val (3 + j)

/-- The report with the bits of `mask` cleared in its flags byte. -/
def Report.clearFlags (r : Report) (mask : Byte) : Report :=
  ⟨r.val.set 1 (r.flags &&& ~~~mask), by simp [r.property]⟩

end Sys2Proof

namespace Sys2Proof.Machine

/-- "A run is clean when at its end SESSION = IDLE, `len(ABUF) = 0` and EVT.OVERFLOW = 0"
(70_reset_and_hazards.md R281). -/
abbrev State.Clean (s : State) : Prop :=
  s.session = .idle ∧ s.abuf.length = 0 ∧ s.evt.getLsbD 3 = false

/-- EVT bits 7..4 read as 0 (10_state.md R26). -/
abbrev State.ReservedEvtZero (s : State) : Prop := s.evt &&& 0xF0 = 0

/-- OVERFLOW is "never set when BUF_CAP is unbounded" (R26). -/
abbrev State.NoOverflowUnbounded (s : State) : Prop := s.cfg.bufCap = none → s.evt.getLsbD 3 = false

/-- ABUF stays within a finite BUF_CAP (41_packet_assembler.md R130). -/
abbrev State.AbufBounded (s : State) : Prop := s.cfg.bufCap.all (fun cap => decide (s.abuf.length ≤ cap)) = true

/-- The queue stays within QUEUE_CAP (44_device_session_host.md R221). -/
abbrev State.QueueBounded (s : State) : Prop := s.queue.length ≤ s.cfg.queueCap

/-- The clock has not passed back behind the last write (60_exceptions.md R256). -/
abbrev State.WindowPast (s : State) : Prop := s.tlast.all (fun t => decide (t ≤ s.now)) = true

/-- A command is outstanding exactly while SESSION is AWAITING_RESPONSE or, for a step, RESYNCHRONIZED (R212,
R224). -/
abbrev State.WaitMatchesSession (s : State) : Prop :=
  s.wait.isSome = (decide (s.session = .awaitingResponse) || decide (s.session = .resynchronized))

/-- The invariant of every step. -/
structure State.Inv (s : State) : Prop where
  params : s.cfg.Ok
  reservedEvt : s.ReservedEvtZero
  noOverflow : s.NoOverflowUnbounded
  abuf : s.AbufBounded
  queue : s.QueueBounded
  window : s.WindowPast
  session : s.WaitMatchesSession

/-- A report ASM neither ignores nor drops: byte 0 = RID_CMD_IN and length at most 61 (41_packet_assembler.md R121,
R122). -/
abbrev State.Accepts (s : State) (r : Report) : Prop := readByte r.val 0 = s.cfg.ridCmdIn ∧ r.len ≤ 61

/-- The append of a report stays within BUF_CAP (R130): a start flag empties ABUF first. -/
abbrev State.Fits (s : State) (r : Report) : Prop :=
  s.cfg.bufCap.all (fun cap => decide ((if r.flagS then 0 else s.abuf.length) + r.len ≤ cap)) = true

/-- The payloads completed in a list of ASM results, in order. -/
def completions (results : List PortResult) : List (List Byte) :=
  results.filterMap fun v =>
    match v with
    | .step res =>
      match res.outcome with
      | .complete p => some p
      | .incomplete => none
    | _ => none

/-- The results of giving reports to ASM one after another, with the state after the last: FEED of
30_encoding.md R89. `none` if an ASM answered anything but a next state. -/
def feed : List Report → State → Option (List PortResult × State)
  | [], s => some ([], s)
  | r :: rest, s =>
    match exec (.asm r) s with
    | .next s1 => (feed rest s1).map fun x => (s1.result :: x.1, x.2)
    | .fault _ => none
    | .refused _ => none

/-- A report with byte 0 replaced by RID_CMD_IN (40_command_encoder.md R108). -/
def asInbound (c : Params) (r : Report) : Report := ⟨r.val.set 0 c.ridCmdIn, by simp [r.property]⟩

end Sys2Proof.Machine
end

