-- ==== Sys2Proof/Certificates/Slice0/Obligations.lean ====
section
/-! DEFINITION. The statements for the provers. "R<n>" is a numbered rule of spec/. -/

open Sys2Proof Sys2Proof.Machine

/-! ### CommandEncoder -/

/-- R102: every byte of every report, with k the number of reports. -/
def Obligations.EncReportImages : Prop :=
  ∀ (s : State) (cmd : List Byte), s.cfg.cmdMax.all (fun m => decide (cmd.length ≤ m)) = true →
    ∃ rs : List Report,
      exec (.enc cmd) s = .next { s with result := .reports rs } ∧
      ∀ i r, rs[i]? = some r →
        readByte r.val 0 = s.cfg.ridCmdOut ∧
        readByte r.val 1 = (if i = 0 then 4 else 0) + (if i + 1 = rs.length then 1 else 0) ∧
        r.len = min 61 (cmd.length - 61 * i) ∧
        (∀ j, j < r.len → readByte r.val (3 + j) = readByte cmd (61 * i + j)) ∧
        (∀ j, 3 + r.len ≤ j → j < 64 → readByte r.val j = 0)

/-- R101 (the greedy split is the spec's own decision D5) and R103: the number of reports, concatenated payloads,
summed lengths, exactly one start and one end flag. -/
def Obligations.EncReconstructsCommand : Prop :=
  ∀ (s : State) (cmd : List Byte), s.cfg.cmdMax.all (fun m => decide (cmd.length ≤ m)) = true →
    ∃ rs : List Report,
      exec (.enc cmd) s = .next { s with result := .reports rs } ∧
      rs.length = (if cmd.length = 0 then 1 else (cmd.length + 60) / 61) ∧
      rs.flatMap Report.slice = cmd ∧
      (rs.map Report.len).sum = cmd.length ∧
      (rs.filter Report.flagS).length = 1 ∧ (rs.filter Report.flagE).length = 1 ∧
      rs.head?.map Report.flagS = some true ∧ rs.getLast?.map Report.flagE = some true

/-- R104: an empty command is one report `RID_CMD_OUT, 05, 00` and 61 zero bytes. -/
def Obligations.EncEmptyCommandOneReport : Prop :=
  ∀ s : State, ∃ r : Report,
    exec (.enc []) s = .next { s with result := .reports [r] } ∧ r.val = [s.cfg.ridCmdOut, 5, 0] ++ zeros 61

/-- R106 (the spec's own decision D12): a command over a finite CMD_MAX is refused, and only such a command. -/
def Obligations.EncRefusesOnlyOverCmdMax : Prop :=
  ∀ (s : State) (cmd : List Byte),
    exec (.enc cmd) s = .refused (.commandTooLong cmd.length) ↔ ∃ m, s.cfg.cmdMax = some m ∧ m < cmd.length

/-! ### PacketAssembler: ASM -/

/-- R121 (the spec's own decision D6): a report of another kind changes nothing and returns `ignored`. -/
def Obligations.AsmIgnoresOtherKinds : Prop :=
  ∀ (s : State) (r : Report), readByte r.val 0 ≠ s.cfg.ridCmdIn →
    exec (.asm r) s = .next { s with
      result := .step
        { outcome := .incomplete, status := .ok, ignored := true, malformed := false, resync := false,
          hostCmdFinished := false, deviceInfo := false } }

/-- R122: a length above 61 drops the report and sets EVT.MALFORMED, whatever the flags. -/
def Obligations.AsmDropsMalformed : Prop :=
  ∀ (s : State) (r : Report), readByte r.val 0 = s.cfg.ridCmdIn → 61 < (readByte r.val 2).toNat →
    exec (.asm r) s = .next { s with
      evt := s.evt ||| 1
      result := .step
        { outcome := .incomplete, status := .malformedReport (readByte r.val 2), ignored := false,
          malformed := true, resync := false, hostCmdFinished := false, deviceInfo := false } }

/-- R123 to R127 (R126 and R127 with the spec's own decisions D9 and D10): the whole effect of a well-formed
command-channel report whose append fits. -/
def Obligations.AsmWellFormedStep : Prop :=
  ∀ (s : State) (r : Report), s.Accepts r → s.Fits r →
    ∃ (rs : Bool) (buf : List Byte),
      rs = (r.flagS && decide (s.abuf.length > 0)) ∧
      buf = (if rs then [] else s.abuf) ++ r.slice ∧
      exec (.asm r) s = .next { s with
        abuf := if r.flagE then [] else buf
        evt := s.evt ||| (if rs then 2 else 0) ||| (if r.flagF then 4 else 0)
        result := .step
          { outcome := if r.flagE then .complete buf else .incomplete
            status := .ok, ignored := false, malformed := false, resync := rs
            hostCmdFinished := r.flagF, deviceInfo := r.flagD } }

/-- R130 (the spec's own decision D12): an append that would pass BUF_CAP is dropped with EVT.OVERFLOW, ABUF
unchanged; with BUF_CAP at least 61 it never happens on a report that resynchronized. -/
def Obligations.AsmOverflowDropsReport : Prop :=
  ∀ (s : State) (r : Report), s.cfg.Ok → s.Accepts r → ¬ s.Fits r →
    (r.flagS = true → s.abuf = []) ∧
    exec (.asm r) s = .next { s with
      evt := s.evt ||| 8
      result := .step
        { outcome := .incomplete, status := .bufferOverflow, ignored := false, malformed := false,
          resync := false, hostCmdFinished := false, deviceInfo := false } }

/-- R134 (derived by the spec from R128): next framing state, outcome and resync bit as a function of the framing
state, S, E and the length. -/
def Obligations.AsmFramingTransition : Prop :=
  ∀ (s : State) (r : Report), s.Accepts r → s.Fits r →
    ∃ (t : State) (res : StepResult),
      exec (.asm r) s = .next t ∧ t.result = .step res ∧
      (t.abuf.length > 0 ↔ r.flagE = false ∧ (r.len > 0 ∨ (r.flagS = false ∧ s.abuf.length > 0))) ∧
      (res.outcome = .incomplete ↔ r.flagE = false) ∧
      (r.flagE = true → res.outcome = .complete ((if r.flagS then [] else s.abuf) ++ r.slice)) ∧
      (res.resync = true ↔ r.flagS = true ∧ s.abuf.length > 0)

/-- R91 against R128: the instruction a report's table row stands for does what ASM's pseudocode does. -/
def Obligations.AsmRowsAgreeWithAsm : Prop :=
  ∀ (s : State) (r : Report), ∃ t, exec (asmRow s.cfg r) s = .next t ∧ exec (.asm r) s = .next t

/-- The rows ASM.MID and ASM.END: append, then INCOMPLETE, or COMPLETE with ABUF cleared (R124, R125). -/
def Obligations.AsmMidEndRowsAppend : Prop :=
  ∀ (s : State) (r : Report), s.Accepts r → s.Fits r → r.flagS = false →
    (r.flagE = false → exec (.asmMid r) s = .next { s with
      abuf := s.abuf ++ r.slice
      evt := s.evt ||| (if r.flagF then 4 else 0)
      result := .step
        { outcome := .incomplete, status := .ok, ignored := false, malformed := false, resync := false
          hostCmdFinished := r.flagF, deviceInfo := r.flagD } }) ∧
    (r.flagE = true → exec (.asmEnd r) s = .next { s with
      abuf := []
      evt := s.evt ||| (if r.flagF then 4 else 0)
      result := .step
        { outcome := .complete (s.abuf ++ r.slice), status := .ok, ignored := false, malformed := false
          resync := false, hostCmdFinished := r.flagF, deviceInfo := r.flagD } })

/-- The rows ASM.START and ASM.SINGLE: clear ABUF first, with a resynchronization when it was non-empty (R123). -/
def Obligations.AsmStartSingleRowsRestart : Prop :=
  ∀ (s : State) (r : Report), s.Accepts r → s.Fits r → r.flagS = true →
    (r.flagE = false → exec (.asmStart r) s = .next { s with
      abuf := r.slice
      evt := s.evt ||| (if s.abuf.length > 0 then 2 else 0) ||| (if r.flagF then 4 else 0)
      result := .step
        { outcome := .incomplete, status := .ok, ignored := false, malformed := false
          resync := decide (s.abuf.length > 0), hostCmdFinished := r.flagF, deviceInfo := r.flagD } }) ∧
    (r.flagE = true → exec (.asmSingle r) s = .next { s with
      abuf := []
      evt := s.evt ||| (if s.abuf.length > 0 then 2 else 0) ||| (if r.flagF then 4 else 0)
      result := .step
        { outcome := .complete r.slice, status := .ok, ignored := false, malformed := false
          resync := decide (s.abuf.length > 0), hostCmdFinished := r.flagF, deviceInfo := r.flagD } })

/-- The rows ASM.MALFORMED and ASM.IGNORED (R122, R121). -/
def Obligations.AsmDroppingRows : Prop :=
  ∀ (s : State) (r : Report),
    ((Instr.asmMalformed r).WellFormed s.cfg = true → ∃ t,
      exec (.asmMalformed r) s = .next t ∧ exec (.asm r) s = .next t ∧
      t = { s with evt := s.evt ||| 1, result := t.result }) ∧
    ((Instr.asmIgnored r).WellFormed s.cfg = true → ∃ t,
      exec (.asmIgnored r) s = .next t ∧ exec (.asm r) s = .next t ∧ t = { s with result := t.result })

/-- The modifier rows ASM.HCF and ASM.DEVINFO: framing is exactly as with the bit clear, and the bit is reported,
EVT.HCF set for HCF (R126, R127). -/
def Obligations.AsmModifierRowsKeepFraming : Prop :=
  ∀ (s : State) (r : Report), s.Accepts r → s.Fits r →
    (r.flagF = true → ∃ (t : State) (res : StepResult),
      exec (.asm (r.clearFlags 2)) s = .next { t with result := .step res } ∧
      exec (.asmHcf r) s = .next { t with
        evt := t.evt ||| 4, result := .step { res with hostCmdFinished := true } }) ∧
    (r.flagD = true → ∃ (t : State) (res : StepResult),
      exec (.asm (r.clearFlags 0x80)) s = .next { t with result := .step res } ∧
      exec (.asmDevinfo r) s = .next { t with result := .step { res with deviceInfo := true } })

/-- R29 (1): while a command is being assembled the host learns of ABUF's content only whether it was empty. -/
def Obligations.AbufHiddenUntilFinalized : Prop :=
  ∀ (s t : State) (b : List Byte) (r : Report), s.cfg.bufCap = none → (b = [] ↔ s.abuf = []) →
    (readByte r.val 1).getLsbD 0 = false → exec (.asm r) s = .next t →
    ∃ t', exec (.asm r) { s with abuf := b } = .next t' ∧ t'.result = t.result ∧ t'.evt = t.evt

/-- R135, first part: the reports of one command complete with their concatenated payloads. That EVT gains HCF for any
report with F, with or without E, is R126 and the spec's own decision D9. -/
def Obligations.ReassemblyLaw : Prop :=
  ∀ (s : State) (init : List Report) (last : Report),
    s.abuf = [] →
    (∀ r ∈ init ++ [last], s.Accepts r) →
    (∀ r ∈ (init ++ [last]).tail, r.flagS = false) →
    (∀ r ∈ init, r.flagE = false) → last.flagE = true →
    s.cfg.bufCap.all (fun cap => decide (((init ++ [last]).map Report.len).sum ≤ cap)) = true →
    ∃ (outs : List PortResult) (v : PortResult) (t : State),
      feed (init ++ [last]) s = some (outs ++ [v], t) ∧
      outs.length = init.length ∧ completions outs = [] ∧
      completions [v] = [(init ++ [last]).flatMap Report.slice] ∧
      t = { s with evt := s.evt ||| (if (init ++ [last]).any Report.flagF then 4 else 0), result := v }

/-- R135, second part: ignored and malformed reports between the reports of a command change no payload. -/
def Obligations.ReassemblyIgnoresInterleavedReports : Prop :=
  ∀ (s : State) (rs : List Report), ∃ o1 t1 o2 t2,
    feed rs s = some (o1, t1) ∧
    feed (rs.filter fun r => r.accepted s.cfg) s = some (o2, t2) ∧
    completions o1 = completions o2 ∧ t1.abuf = t2.abuf

/-- R108: what ENC produces, given back with byte 0 replaced, completes as the command. -/
def Obligations.EncodeThenAssembleRoundTrip : Prop :=
  ∀ (s : State) (cmd : List Byte), s.abuf = [] →
    s.cfg.cmdMax.all (fun m => decide (cmd.length ≤ m)) = true →
    s.cfg.bufCap.all (fun cap => decide (cmd.length ≤ cap)) = true →
    ∃ (rs : List Report) (outs : List PortResult) (v : PortResult),
      exec (.enc cmd) s = .next { s with result := .reports rs } ∧
      feed (rs.map (asInbound s.cfg)) s = some (outs ++ [v], { s with result := v }) ∧
      outs.length + 1 = rs.length ∧ completions outs = [] ∧ completions [v] = [cmd]

/-! ### ACLR, ECLR, INP -/

/-- R131: ACLR empties ABUF and does nothing else. That the port byte 02 is its op 0x2 rests on the model's layout of
the port (log 4). -/
def Obligations.AclrEmptiesAbufOnly : Prop :=
  ∀ s : State, decode s.cfg (.op [0x02]) = .ok .aclr ∧ exec .aclr s = .next { s with abuf := [], result := .none }

/-- R133 (the spec's own decision D11): bits 0 to 2 are cleared where the mask has a 1, every other bit is kept. -/
def Obligations.EclrClearsMaskedBits : Prop :=
  ∀ (s : State) (m : Byte), ∃ e : Byte,
    exec (.eclr m) s = .next { s with evt := e, result := .none } ∧
    ∀ i, i < 8 → e.getLsbD i = (s.evt.getLsbD i && !(decide (i < 3) && m.getLsbD i))

/-- R132 (the spec's own decision D23): INP and its table row: panel i is bit i of the little-endian mask; another
kind is ignored. -/
def Obligations.InpReportsPressedPanels : Prop :=
  ∀ (s : State) (r : Report), ∃ pressed : BitVec 9,
    (∀ i, i < 8 → pressed.getLsbD i = (readByte r.val 1).getLsbD i) ∧
    pressed.getLsbD 8 = (readByte r.val 2).getLsbD 0 ∧
    exec (.inp r) s = .next { s with
      result := if readByte r.val 0 = s.cfg.ridInput then .input false pressed else .input true 0 } ∧
    exec (.inpReport r) s = .next { s with result := .input false pressed }

/-! ### ConfigCodec -/

/-- R153: the decoded record's 216 values are those the field table reads, value q of panel p at index 49 + 13p + q.
-/
def Obligations.CfgdReadsFieldTable : Prop :=
  ∀ (s : State) (b : Bytes 250), ∃ rec : ConfigRecord,
    exec (.cfgd b.val) s = .next { s with result := .config .ok rec } ∧
    (recordValues rec).map BitVec.toNat = flatValues b ∧ (flatValues b).length = 216 ∧
    ∀ (p q : Nat) (x : PanelSensorSettings), rec.panelSettings.val[p]? = some x → q < 13 →
      (recordValues rec)[49 + 13 * p + q]? = (panelValues x)[q]?

/-- R158 (the spec's own decision D17): any other length is BadLength with the length, beside the default record. -/
def Obligations.CfgdRejectsWrongLength : Prop :=
  ∀ (s : State) (b : List Byte), b.length ≠ 250 →
    exec (.cfgd b) s = .next { s with result := .config (.badLength b.length) (unpack s.cfg.cfgDefault) }

/-- R156: byte by byte, each of the 216 values stands at its offset, low byte first. -/
def Obligations.CfgeWritesFieldTable : Prop :=
  ∀ (s : State) (rec : ConfigRecord), ∃ c : Bytes 250,
    exec (.cfge rec) s = .next { s with result := .image c } ∧
    ∀ (i o w : Nat) (v : Word), fieldElements[i]? = some (o, w) → (recordValues rec)[i]? = some v →
      (readByte c.val o).toNat = v.toNat % 256 ∧ (w = 2 → (readByte c.val (o + 1)).toNat = v.toNat / 256)

/-- R157: encode after decode gives the 250 bytes back, and decode after encode the record. -/
def Obligations.CfgRoundTrip : Prop :=
  ∀ s : State,
    (∀ b : Bytes 250, ∃ rec : ConfigRecord,
      exec (.cfgd b.val) s = .next { s with result := .config .ok rec } ∧
      exec (.cfge rec) { s with result := .config .ok rec } = .next { s with result := .image b }) ∧
    (∀ rec : ConfigRecord, ∃ c : Bytes 250,
      exec (.cfge rec) s = .next { s with result := .image c } ∧
      exec (.cfgd c.val) { s with result := .image c } = .next { s with result := .config .ok rec })

/-- R174, R175 (the spec's own decision D18): a payload that holds its declared size decodes, its first bytes from
the response and the rest from the default image. -/
def Obligations.CfguOverlaysDefault : Prop :=
  ∀ (s : State) (p : List Byte), 2 ≤ p.length → 2 + (readByte p 1).toNat ≤ p.length →
    ∃ img : Bytes 250,
      exec (.cfgu p) s = .next { s with result := .config .ok (unpack img) } ∧
      ∀ j, j < 250 → readByte img.val j =
        if j < (readByte p 1).toNat then readByte p (2 + j) else readByte s.cfg.cfgDefault.val j

/-- R176, with R174's test of what is too short (the spec's own decision D18): such a payload is InvalidConfigPacket
beside the default record. -/
def Obligations.CfguRejectsShortPayload : Prop :=
  ∀ (s : State) (p : List Byte), p.length < 2 ∨ p.length < 2 + (readByte p 1).toNat →
    exec (.cfgu p) s = .next { s with result := .config .invalidConfigPacket (unpack s.cfg.cfgDefault) }

/-- R170 to R173 (the spec's own decision D20): the four parts of an identity. -/
def Obligations.IddReadsIdentity : Prop :=
  ∀ (s : State) (p : List Byte), 23 ≤ p.length →
    ∃ id : DeviceIdentity,
      exec (.idd p) s = .next { s with result := .identity .ok id } ∧
      id.player = (readByte p 2).toNat + 1 ∧
      id.firmwareVersion.toNat = (readByte p 20).toNat + 256 * (readByte p 21).toNat ∧
      ∃ digits : List Char,
        digits = ['0', '1', '2', '3', '4', '5', '6', '7', '8', '9', 'A', 'B', 'C', 'D', 'E', 'F'] ∧
        ∀ i, i < 16 →
          readByte id.serial.val i = readByte p (4 + i) ∧
          id.serialHex.val[2 * i]? = digits[(readByte p (4 + i)).toNat / 16]? ∧
          id.serialHex.val[2 * i + 1]? = digits[(readByte p (4 + i)).toNat % 16]?

/-- R170 (the spec's own decision D20): fewer than 23 bytes are BadLength beside an all-zero identity of player 1. -/
def Obligations.IddRejectsShortPayload : Prop :=
  ∀ (s : State) (p : List Byte), p.length < 23 →
    ∃ id : DeviceIdentity,
      exec (.idd p) s = .next { s with result := .identity (.badLength p.length) id } ∧
      id.serial.val = zeros 16 ∧ id.firmwareVersion = 0 ∧ id.player = 1

/-! ### DiagnosticDecoder -/

/-- R192 to R198 (the spec's own decision D21): each panel from its ten record bytes, bit k of byte j being bit p of
word 8j + k. -/
def Obligations.DiagDecodesPanels : Prop :=
  ∀ (s : State) (w : List Word), 80 ≤ w.length →
    ∃ f : DiagnosticFrame,
      exec (.diag w) s = .next { s with result := .frame .ok f } ∧
      ∀ (p : Nat) (d : Bytes 10), p < 9 →
        (∀ j k, j < 10 → k < 8 → (readByte d.val j).getLsbD k = (w.getD (8 * j + k) 0).getLsbD p) →
        ((readByte d.val 0).toNat % 8 ≠ 2 → f.val[p]? = some none) ∧
        ((readByte d.val 0).toNat % 8 = 2 → ∃ x : PanelDiag,
          f.val[p]? = some (some x) ∧
          x.dip.toNat = (readByte d.val 9).toNat % 16 ∧
          ∀ i, i < 4 →
            x.badSensor.getLsbD i = (readByte d.val 0).getLsbD (3 + i) ∧
            x.badSensorJumper.getLsbD i = (readByte d.val 9).getLsbD (4 + i) ∧
            ∃ v : Nat, v = (readByte d.val (1 + 2 * i)).toNat + 256 * (readByte d.val (2 + 2 * i)).toNat ∧
              x.sensor.val[i]? = some (if v ≥ 32768 then (v : Int) - 65536 else (v : Int)))

/-- R199 (the spec's own decision D21): fewer than 80 words are BadLength with the count, all nine panels absent;
words after the 80th change nothing. -/
def Obligations.DiagLengthRule : Prop :=
  ∀ (s : State) (w : List Word),
    (w.length < 80 → ∃ f : DiagnosticFrame,
      exec (.diag w) s = .next { s with result := .frame (.badLength w.length) f } ∧
      f.val = List.replicate 9 none) ∧
    (80 ≤ w.length → ∃ f : DiagnosticFrame,
      exec (.diag w) s = .next { s with result := .frame .ok f } ∧
      exec (.diag (w.take 80)) s = .next { s with result := .frame .ok f })

/-- R200: a panel's result depends on its own bit of the 80 words and on nothing else. -/
def Obligations.DiagPanelsIndependent : Prop :=
  ∀ (s : State) (w w' : List Word) (p : Nat), p < 9 → 80 ≤ w.length → 80 ≤ w'.length →
    (∀ i, i < 80 → (w.getD i 0).getLsbD p = (w'.getD i 0).getLsbD p) →
    ∃ f f' : DiagnosticFrame,
      exec (.diag w) s = .next { s with result := .frame .ok f } ∧
      exec (.diag w') s = .next { s with result := .frame .ok f' } ∧ f.val[p]? = f'.val[p]?

/-! ### Response dispatch -/

/-- R219 (the spec's own decision D34): three tags go to IDD and CFGU; five have no response body and are recognised,
given to no decoder (log 12). -/
def Obligations.TagsDispatchByEcho : Prop :=
  ∀ (s : State) (body : List Byte),
    (∃ t1 t2 t3,
      exec (.tagGetDeviceInfo body) s = .next t1 ∧ exec (.idd (s.cfg.tags.getDeviceInfo :: body)) s = .next t1 ∧
      exec (.tagGetConfigV5 body) s = .next t2 ∧ exec (.cfgu (s.cfg.tags.getConfigV5 :: body)) s = .next t2 ∧
      exec (.tagWriteConfigV5 body) s = .next t3 ∧ exec (.cfgu (s.cfg.tags.writeConfigV5 :: body)) s = .next t3) ∧
    exec (.tagGetConfig body) s = .next { s with result := .recognised (s.cfg.tags.getConfig :: body) } ∧
    exec (.tagWriteConfig body) s = .next { s with result := .recognised (s.cfg.tags.writeConfig :: body) } ∧
    exec (.tagFactoryReset body) s = .next { s with result := .recognised (s.cfg.tags.factoryReset :: body) } ∧
    exec (.tagSetLightStrip body) s = .next { s with result := .recognised (s.cfg.tags.setLightStrip :: body) } ∧
    exec (.tagForceRecalibration body) s =
      .next { s with result := .recognised (s.cfg.tags.forceRecalibration :: body) }

/-- R219, R191: get-sensor-test-data goes to DIAG on the words from where the host locates the stream; the place is
the model's parameter (log 9). -/
def Obligations.TagSensorDataDispatchesToDiag : Prop :=
  ∀ (s : State) (body : List Byte), ∃ (start : Nat) (t : State),
    (∀ n, s.cfg.streamRule = .at n → start = n) ∧
    exec (.tagGetSensorTestData body) s = .next t ∧
    exec (.diag (wordsOfBytes ((s.cfg.tags.getSensorTestData :: body).drop start))) s = .next t

/-- R249 (the spec's own decision D34): an empty payload or one with none of the nine tags is discarded as
UnknownOpcode. -/
def Obligations.DispatchFailsClosed : Prop :=
  ∀ (s : State) (p : List Byte) (rest : List Event), s.events = .dispatch :: rest → s.pending = some p →
    (∀ b, p.head? = some b → b ∉ s.cfg.tags.toList) →
    step s = .next { s with
      events := rest, pending := none, result := .failed (.unknownOpcode p.head?) }

/-! ### Decoding -/

/-- Every well-formed instruction decodes from its encoding, every operand kept. -/
def Obligations.DecodeOfEncode : Prop :=
  ∀ (c : Params) (i : Instr), c.Ok → i.WellFormed c = true → decode c (encode c i) = .ok i

/-- Whatever decodes is the encoding of what it decodes to: no bit is dropped and no two words share a meaning. -/
def Obligations.EncodeOfDecode : Prop :=
  ∀ (c : Params) (w : Issue) (i : Instr), decode c w = .ok i → encode c i = w

/-- Words written out from R85, R88, R71 and the suggested tags of R90 (log 1). The bytes on the port are the model's
choice (log 4). -/
def Obligations.DecodeSampleWords : Prop :=
  decode Config.suggested (.op [0x00, 0x69]) = .ok (.enc [0x69]) ∧
  decode Config.suggested (.op [0x02]) = .ok .aclr ∧
  decode Config.suggested (.op [0x04, 0x07]) = .ok (.eclr 0x07) ∧
  decode Config.suggested (.op [0x07, 0x47, 0x00]) = .ok (.cfgu [0x47, 0x00]) ∧
  decode Config.suggested (.op [0x09, 0x34, 0x12]) = .ok (.diag [0x1234]) ∧
  decode Config.suggested (.report (Report.build 0x06 0x04 0x03 [0xAA, 0xBB, 0xCC])) =
    .ok (.asmStart (Report.build 0x06 0x04 0x03 [0xAA, 0xBB, 0xCC])) ∧
  decode Config.suggested (.payload [0x69, 0x00]) = .ok (.tagGetDeviceInfo [0x00])

/-- R86: an unassigned select is rejected with any operand; so is an op byte wider than four bits, the model's choice
(log 4). -/
def Obligations.UnassignedSelectsRejected : Prop :=
  ∀ (c : Params) (b : Byte) (x : List Byte), 0xA ≤ b.toNat →
    ∃ e, decode c (.op (b :: x)) = .error e ∧ (b.toNat < 16 → e = .unassignedOp b.toNat)

/-! ### The machine -/

/-- A step runs the instruction its input decodes to: from the port, from the queue of an idle session, and from a
returned payload. -/
def Obligations.StepRunsDecodedInstruction : Prop :=
  ∀ (s : State) (rest : List Event) (i : Instr),
    (∀ bytes, s.events = .issue bytes :: rest → decode s.cfg (.op bytes) = .ok i →
      step s = exec i { s with events := rest }) ∧
    (∀ r q, s.events = .take :: rest → s.queue = r :: q → s.session = .idle → s.wait = none →
      decode s.cfg (.report r) = .ok i →
      (∀ t, exec i { s with events := rest, queue := q } = .next t → step s = .next t)) ∧
    (∀ p, s.events = .dispatch :: rest → s.pending = some p → decode s.cfg (.payload p) = .ok i →
      step s = exec i { s with events := rest, pending := none })

/-- R20: an operation writes nothing but ABUF, EVT and its own result; only ASM and ACLR write ABUF, only ASM and
ECLR write EVT. -/
def Obligations.ExecWritesOnlyAbufEvtResult : Prop :=
  ∀ (i : Instr) (s t : State), exec i s = .next t →
    t = { s with abuf := t.abuf, evt := t.evt, result := t.result } ∧
    ((∀ r, i ≠ .asm r ∧ i ≠ .asmMid r ∧ i ≠ .asmEnd r ∧ i ≠ .asmStart r ∧ i ≠ .asmSingle r ∧
        i ≠ .asmHcf r ∧ i ≠ .asmDevinfo r) →
      (i ≠ .aclr → t.abuf = s.abuf) ∧
      ((∀ r, i ≠ .asmMalformed r) → (∀ m, i ≠ .eclr m) → t.evt = s.evt))

/-- R26 (the spec's own decision D11): no operation but ECLR clears an event bit. -/
def Obligations.OnlyEclrClearsEvents : Prop :=
  ∀ (i : Instr) (s t : State), (∀ m, i ≠ .eclr m) → exec i s = .next t →
    ∀ k, s.evt.getLsbD k = true → t.evt.getLsbD k = true

/-- R26, R250, R270 (the spec's own decisions D11 to D13): EVT.OVERFLOW stays set over every step that is not a
reset. -/
def Obligations.OverflowStaysUntilReset : Prop :=
  ∀ s t : State, step s = .next t → s.events.head? ≠ some .reset → s.evt.getLsbD 3 = true →
    t.evt.getLsbD 3 = true

/-- R31 (the spec's own decision D13): the state right after reset. -/
def Obligations.ResetValues : Prop :=
  State.reset.abuf = [] ∧ State.reset.evt = 0x00 ∧ State.reset.session = .idle ∧ State.reset.tlast = none

/-- R270 (the spec's own decision D13): a reset puts the four state elements at R31's values and touches neither the
queue nor the channel. -/
def Obligations.ResetEventRestoresState : Prop :=
  ∀ (s : State) (rest : List Event), s.events = .reset :: rest →
    ∃ t, step s = .next t ∧
      t.abuf = [] ∧ t.evt = 0x00 ∧ t.session = .idle ∧ t.tlast = none ∧
      t.queue = s.queue ∧ t.channel = s.channel ∧ t.reading = s.reading ∧ t.sent = s.sent ∧
      t.blocking = s.blocking ∧ t.now = s.now ∧ t.cfg = s.cfg

/-- R31, R271: the parameters never change. -/
def Obligations.StepKeepsParameters : Prop :=
  ∀ s t : State, step s = .next t → t.cfg = s.cfg

/-- The invariant of Sys2Proof/Safety.lean is kept by every step from every state that meets it. -/
def Obligations.StepKeepsInvariant : Prop :=
  ∀ s t : State, s.Inv → step s = .next t → t.Inv

/-- The reset state meets the invariant. It rests on the model's parameters (log 1). -/
def Obligations.ResetMeetsInvariant : Prop := State.reset.Inv

/-! ### The host side -/

/-- R213 up to its loop (ECLR is the spec's own decision D25): HCF cleared, ENC's reports written in order, the wait
begun with its deadline. -/
def Obligations.SendAndWaitStartsWait : Prop :=
  ∀ (s : State) (cmd : List Byte) (ackOnly : Bool) (timeout : Nat) (rs : List Report),
    s.session = .idle → exec (.enc cmd) s = .next { s with result := .reports rs } →
    handle (.sendAndWait cmd ackOnly timeout (List.replicate rs.length 64)) s = .next { s with
      evt := s.evt &&& 0xFB
      result := .reports rs
      sent := s.sent ++ rs
      session := .awaitingResponse
      wait := some ⟨cmd, ackOnly, s.now + timeout⟩
      ret := .none }

/-- R220: a second command while one is outstanding has no meaning: it is refused. That one is still outstanding in
RESYNCHRONIZED is the spec's own decision D27 and log 14. -/
def Obligations.SecondCommandRefused : Prop :=
  ∀ (s : State) (cmd : List Byte) (ackOnly : Bool) (timeout : Nat) (counts : List Nat),
    s.session = .awaitingResponse ∨ s.session = .resynchronized →
    handle (.sendAndWait cmd ackOnly timeout counts) s = .refused .commandInFlight

/-- R243, R252 (ACLR on timeout and the transient RESYNCHRONIZED are the spec's own decisions D28 and D27): when the
deadline has been reached (log 11: a queued report then does not win) ABUF is cleared, Timeout returned, EVT unchanged,
a queued report left; the return is a step of its own (log 14), and the session is then idle again. -/
def Obligations.TimeoutLeavesCleanSession : Prop :=
  ∀ (s : State) (w : Wait), s.session = .awaitingResponse ∨ s.session = .resynchronized →
    s.wait = some w → w.deadline ≤ s.now →
    ∃ t, handle .take s = .next t ∧
      t = { s with abuf := [], result := .none, session := .timedOut, wait := none, ret := .error .timeout } ∧
      handle .sessionReturn t = .next { t with session := .idle }

/-- R213, R219 (the spec's own decision D28): a completed payload whose first byte echoes the command's tag ends the
wait with that payload, also a wait for an acknowledgement when the report is none. -/
def Obligations.AcceptedPayloadEndsWait : Prop :=
  ∀ (s t : State) (w : Wait) (r : Report) (q : List Report) (tag : Byte) (tail body : List Byte) (res : StepResult),
    s.session = .awaitingResponse ∨ s.session = .resynchronized →
    s.wait = some w → s.now < w.deadline → s.queue = r :: q →
    w.cmd = tag :: tail → (w.ackOnly = true → isAck s.cfg res = false) → readByte r.val 0 = s.cfg.ridCmdIn →
    exec (.asm r) { s with queue := q, session := .awaitingResponse } = .next t → t.result = .step res →
    res.outcome = .complete (tag :: body) →
    handle .take s = .next { t with
      session := .complete, wait := none, ret := .payload (tag :: body), pending := some (tag :: body) }

/-- R213's "otherwise keep waiting", R222 and R224 (the spec's own decisions D27 and D28): whatever a taken report does
that neither acknowledges nor answers the command (incomplete, ignored, malformed, resynchronized, an input report, an
empty or unasked payload), the wait goes on, same command and deadline; a resynchronization shows as RESYNCHRONIZED
until the session goes on (log 14). -/
def Obligations.UnsolicitedPayloadKeepsWaiting : Prop :=
  ∀ (s t : State) (w : Wait) (r : Report) (q : List Report),
    s.session = .awaitingResponse ∨ s.session = .resynchronized →
    s.wait = some w → s.now < w.deadline → s.queue = r :: q → s.cfg.Ok →
    (readByte r.val 0 = s.cfg.ridInput →
      exec (.inp r) { s with queue := q, session := .awaitingResponse } = .next t → handle .take s = .next t) ∧
    (∀ res : StepResult, readByte r.val 0 ≠ s.cfg.ridInput →
      exec (.asm r) { s with queue := q, session := .awaitingResponse } = .next t → t.result = .step res →
      (w.ackOnly = true → isAck s.cfg res = false) →
      (∀ p, res.outcome = .complete p → p = [] ∨ ∃ b c, p.head? = some b ∧ w.cmd.head? = some c ∧ b ≠ c) →
      ∃ t', handle .take s = .next t' ∧
        t' = { t with session := if res.resync then .resynchronized else .awaitingResponse } ∧
        t'.wait = some w ∧ t'.settle = t)

/-- R215 (the spec's own decision D25): under the default predicate a report with F set acknowledges a command that
waits for one. -/
def Obligations.HcfAcknowledges : Prop :=
  ∀ (s : State) (w : Wait) (r : Report) (q : List Report),
    s.session = .awaitingResponse → s.wait = some w → s.now < w.deadline → s.queue = r :: q →
    w.ackOnly = true → s.cfg.ackRule = .hostCmdFinished → s.Accepts r → s.Fits r → r.flagF = true →
    ∃ t, exec (.asm r) { s with queue := q } = .next t ∧
      handle .take s = .next { t with session := .complete, wait := none, ret := .ack }

/-- R210, R211, R221: a call of `read(timeout)` returns the channel's oldest report, or the report that arrives within
the timeout, or "empty" when none did (log 20 for the two ends); the reader appends what it gets to the queue in that
order; an idle session takes the oldest report, gives it to ASM or INP by kind and keeps no payload. -/
def Obligations.IdleSessionTakesReportsInOrder : Prop :=
  ∀ s : State,
    (s.reading = none → s.channel = [] → ∀ timeout : Nat,
      handle (.read timeout) s = .next { s with reading := some (s.now + timeout), lastRead := .none }) ∧
    (s.reading = none → s.queue.length < s.cfg.queueCap → ∀ (timeout : Nat) (r : Report) (c : List Report),
      s.channel = r :: c →
      handle (.read timeout) s = .next { s with channel := c, queue := s.queue ++ [r], lastRead := .report r }) ∧
    (∀ (r : Report) (deadline : Nat), s.reading = some deadline → s.now ≤ deadline →
      s.queue.length < s.cfg.queueCap →
      handle (.arrive r) s = .next { s with reading := none, queue := s.queue ++ [r], lastRead := .report r }) ∧
    (∀ r : Report, (∀ deadline, s.reading = some deadline → deadline < s.now) →
      handle (.arrive r) s = .next { s with channel := s.channel ++ [r] }) ∧
    (∀ deadline : Nat, s.reading = some deadline → handle .readEmpty s = .next
      (if deadline ≤ s.now then { s with reading := none, lastRead := .empty } else s)) ∧
    (∀ (r : Report) (q : List Report), s.cfg.Ok → s.session = .idle → s.wait = none → s.queue = r :: q →
      ∃ t, handle .take s = .next t ∧ t.pending = s.pending ∧ t.ret = s.ret ∧ t.queue = q ∧
        (if readByte r.val 0 = s.cfg.ridInput then exec (.inp r) { s with queue := q }
          else exec (.asm r) { s with queue := q }) = .next t)

/-- R247: inside the window the attempt is rejected with the remaining time in 1..1000 and nothing moves. -/
def Obligations.RateLimitedWriteDoesNothing : Prop :=
  ∀ (s : State) (firmware : Word) (rec : ConfigRecord) (timeout : Nat) (counts : List Nat) (last : Nat),
    s.tlast = some last → last ≤ s.now → s.now - last < 1000 →
    ∃ remaining, 1 ≤ remaining ∧ remaining ≤ 1000 ∧ s.now + remaining = last + 1000 ∧
      handle (.writeConfig firmware rec timeout counts) s = .next { s with ret := .error (.rateLimited remaining) }

/-- R216 (the spec's own decision D26): a configuration write reaches the channel only after the window, and then
moves TLAST to now. -/
def Obligations.WriteReachesChannelOnlyAfterWindow : Prop :=
  ∀ (s t : State) (firmware : Word) (rec : ConfigRecord) (timeout : Nat) (counts : List Nat),
    handle (.writeConfig firmware rec timeout counts) s = .next t → t.sent ≠ s.sent →
    (∀ last, s.tlast = some last → last + 1000 ≤ s.now) ∧ t.tlast = some s.now

/-- R216, R218, R223 (the spec's own decisions D26, D31 and D33): outside the window a write with the suggested command
layout is sent whole and its wait is for an acknowledgement, until now + timeout: the v5+ request in five reports, or
the legacy tag with a free request behind it (log 21). -/
def Obligations.WriteOutsideWindowIsSent : Prop :=
  ∀ (s : State) (firmware : Word) (rec : ConfigRecord) (timeout : Nat), s.session = .idle → s.cfg.cmdMax = none →
    s.cfg.writeCmdRule = .tagSizeRecord → (∀ last, s.tlast = some last → last + 1000 ≤ s.now) →
    ∃ (cmd : List Byte) (rs : List Report) (t : State),
      (5 ≤ firmware.toNat → cmd = s.cfg.tags.writeConfigV5 :: 250 :: (pack rec).val ∧ rs.length = 5) ∧
      (firmware.toNat < 5 → ∃ body, cmd = s.cfg.tags.writeConfig :: body) ∧
      rs.flatMap Report.slice = cmd ∧
      handle (.writeConfig firmware rec timeout (List.replicate rs.length 64)) s = .next t ∧
      t.sent = s.sent ++ rs ∧ t.tlast = some s.now ∧ t.session = .awaitingResponse ∧
      t.wait = some ⟨cmd, true, s.now + timeout⟩

/-- R223 (the spec's own decision D31): the v5+ variant exactly when the firmware version is at least 5; the legacy
command's body and the kind of wait are the model's choice (log 19). -/
def Obligations.FirmwareChoosesVariant : Prop :=
  ∀ (s : State) (firmware : Word) (timeout : Nat) (counts : List Nat),
    handle (.getConfig firmware timeout counts) s =
      handle (.sendAndWait [if firmware.toNat < 5 then s.cfg.tags.getConfig else s.cfg.tags.getConfigV5]
        false timeout counts) s

/-- R217, in the model's one-step form (log 10: the input says how many attempts fail before one would succeed): after
CONNECT_RETRIES failed attempts the host reports ConnectionNotFound, and with fewer it connects. -/
def Obligations.ConnectionGivesUpAfterRetries : Prop :=
  ∀ (s : State) (failures : Nat),
    handle (.connect failures) s = .next { s with
      ret := if s.cfg.connectRetries ≤ failures then .error .connectionNotFound else .connected }
end

