-- ==== Sys2Proof/Laws/Bytes.lean ====
section
/-! SUPPORT. Lemmas about bytes, words, fixed-length sequences, reports and the two layouts of words. -/

namespace Sys2Proof

/-- Fixed-length sequences with the same elements are equal. -/
theorem Vec.ext_getElem {α : Type} {n : Nat} {a b : Vec α n} (h : ∀ i : Nat, i < n → a.val[i]? = b.val[i]?) :
    a = b := by
  apply Subtype.ext
  apply List.ext_getElem?
  intro i
  by_cases hi : i < n
  · exact h i hi
  · rw [List.getElem?_eq_none (by have := a.property; omega), List.getElem?_eq_none (by have := b.property; omega)]

@[simp] theorem Vec.tab_getElem? {α : Type} (n : Nat) (f : Nat → α) (i : Nat) :
    (Vec.tab n f).val[i]? = if i < n then some (f i) else none := by
  by_cases h : i < n <;> simp [Vec.tab, h]

theorem Vec.length {α : Type} {n : Nat} (v : Vec α n) : v.val.length = n := v.property

end Sys2Proof

namespace Sys2Proof.Machine

/-! ### Field access -/

theorem readByte_eq_getElem {l : List Byte} {i : Nat} (h : i < l.length) : readByte l i = l[i] := by
  simp [readByte, List.getD_eq_getElem?_getD, h]

theorem getElem?_eq_readByte {l : List Byte} {i : Nat} (h : i < l.length) : l[i]? = some (readByte l i) := by
  simp [readByte_eq_getElem h, h]

theorem readByte_of_ge {l : List Byte} {i : Nat} (h : l.length ≤ i) : readByte l i = 0 := by
  simp [readByte, List.getD_eq_getElem?_getD, h]

@[simp] theorem readByte_cons_zero (b : Byte) (l : List Byte) : readByte (b :: l) 0 = b := rfl

@[simp] theorem readByte_cons_succ (b : Byte) (l : List Byte) (i : Nat) :
    readByte (b :: l) (i + 1) = readByte l i := rfl

theorem readByte_append_left {a b : List Byte} {i : Nat} (h : i < a.length) :
    readByte (a ++ b) i = readByte a i := by
  simp [readByte, List.getD_eq_getElem?_getD, List.getElem?_append_left h]

theorem readByte_append_right {a b : List Byte} {i : Nat} (h : a.length ≤ i) :
    readByte (a ++ b) i = readByte b (i - a.length) := by
  simp [readByte, List.getD_eq_getElem?_getD, List.getElem?_append_right h]

@[simp] theorem readByte_drop (l : List Byte) (n i : Nat) : readByte (l.drop n) i = readByte l (n + i) := by
  simp [readByte, List.getD_eq_getElem?_getD]

theorem readByte_take {l : List Byte} {n i : Nat} (h : i < n) : readByte (l.take n) i = readByte l i := by
  simp [readByte, List.getD_eq_getElem?_getD, h]

@[simp] theorem readByte_tab {n : Nat} (f : Nat → Byte) (i : Nat) :
    readByte (Vec.tab n f).val i = if i < n then f i else 0 := by
  by_cases h : i < n <;> simp [readByte, List.getD_eq_getElem?_getD, h]

@[simp] theorem readByte_zeros (n i : Nat) : readByte (zeros n) i = 0 := by
  by_cases h : i < n <;> simp [readByte, zeros, List.getD_eq_getElem?_getD, h]

/-- Byte sequences of equal extent with the same bytes are equal. -/
theorem Bytes.ext_readByte {n : Nat} {a b : Bytes n} (h : ∀ i, i < n → readByte a.val i = readByte b.val i) :
    a = b := by
  apply Vec.ext_getElem
  intro i hi
  rw [getElem?_eq_readByte (by have := a.property; omega), getElem?_eq_readByte (by have := b.property; omega), h i hi]

/-! ### Words -/

theorem le16_toNat (lo hi : Byte) : (le16 lo hi).toNat = lo.toNat + 256 * hi.toNat := by
  have := lo.isLt
  have e : (le16 lo hi).toNat = (hi ++ lo : BitVec (8 + 8)).toNat := rfl
  rw [e, BitVec.toNat_append, Nat.shiftLeft_eq, Nat.mul_comm, ← Nat.two_pow_add_eq_or_of_lt this]
  omega

theorem lo8_toNat (v : Word) : (lo8 v).toNat = v.toNat % 256 := by simp [lo8]

theorem hi8_toNat (v : Word) : (hi8 v).toNat = v.toNat / 256 := by
  have := v.isLt
  simp [hi8, BitVec.toNat_ushiftRight, Nat.shiftRight_eq_div_pow]; omega

@[simp] theorem lo8_le16 (lo hi : Byte) : lo8 (le16 lo hi) = lo := by
  apply BitVec.eq_of_toNat_eq
  have := lo.isLt; have := hi.isLt
  rw [lo8_toNat, le16_toNat]; omega

@[simp] theorem hi8_le16 (lo hi : Byte) : hi8 (le16 lo hi) = hi := by
  apply BitVec.eq_of_toNat_eq
  have := lo.isLt; have := hi.isLt
  rw [hi8_toNat, le16_toNat]; omega

@[simp] theorem le16_lo8_hi8 (v : Word) : le16 (lo8 v) (hi8 v) = v := by
  apply BitVec.eq_of_toNat_eq
  have := v.isLt
  rw [le16_toNat, lo8_toNat, hi8_toNat]; omega

@[simp] theorem lo8_zext16 (b : Byte) : lo8 (zext16 b) = b := by
  apply BitVec.eq_of_toNat_eq
  simp [lo8, zext16]

theorem zext16_lo8 {v : Word} (h : v.toNat < 256) : zext16 (lo8 v) = v := by
  apply BitVec.eq_of_toNat_eq
  simp [lo8, zext16]; omega

/-- `s16` in the words of R11. -/
theorem s16_le16 (lo hi : Byte) : s16 (le16 lo hi) =
    if lo.toNat + 256 * hi.toNat ≥ 32768 then ((lo.toNat + 256 * hi.toNat : Nat) : Int) - 65536
    else ((lo.toNat + 256 * hi.toNat : Nat) : Int) := by
  have := lo.isLt; have := hi.isLt
  rw [s16, BitVec.toInt_eq_toNat_cond, le16_toNat]
  split <;> split <;> omega

/-! ### Streams of words -/

@[simp] theorem wordsOfBytes_bytesOfWords (w : List Word) : wordsOfBytes (bytesOfWords w) = w := by
  induction w with
  | nil => rfl
  | cons v rest ih =>
    simp only [bytesOfWords, List.flatMap_cons, wordBytes, List.cons_append, List.nil_append] at *
    simp [wordsOfBytes, ih]

@[simp] theorem bytesOfWords_length (w : List Word) : (bytesOfWords w).length = 2 * w.length := by
  induction w with
  | nil => rfl
  | cons v rest ih =>
    simp only [bytesOfWords, List.flatMap_cons, List.length_append, List.length_cons] at *
    simp [wordBytes, ih]; omega

theorem bytesOfWords_wordsOfBytes : ∀ (l : List Byte), l.length % 2 = 0 → bytesOfWords (wordsOfBytes l) = l
  | [], _ => rfl
  | [_], h => by simp at h
  | lo :: hi :: rest, h => by
    have ih := bytesOfWords_wordsOfBytes rest (by simp at h; omega)
    simp only [bytesOfWords, wordsOfBytes, List.flatMap_cons] at *
    simp [wordBytes, ih]

theorem wordsOfBytes_length : ∀ l : List Byte, (wordsOfBytes l).length = l.length / 2
  | [] => rfl
  | [_] => by simp [wordsOfBytes]
  | _ :: _ :: rest => by simp [wordsOfBytes, wordsOfBytes_length rest]; omega

end Sys2Proof.Machine

namespace Sys2Proof

open Sys2Proof.Machine

/-! ### Reports -/

/-- The payload slice of a well-formed report lies in the report (R124). -/
theorem Report.payload_length (r : Report) (h : r.len ≤ 61) : r.payload.length = r.len := by
  have := r.property
  simp [Report.payload]; omega

theorem Report.payload_eq_slice (r : Report) (h : r.len ≤ 61) : r.payload = r.slice := by
  apply List.ext_getElem
  · simp [Report.payload_length r h, Report.slice]
  · intro i h1 h2
    have hr := r.property
    have : i < r.len := by simpa [Report.slice] using h2
    simp [Report.payload, Report.slice, readByte_eq_getElem (l := r.val) (i := 3 + i) (by omega)]

theorem Report.slice_length (r : Report) : r.slice.length = r.len := by simp [Report.slice]

/-- The four bytes ranges of a built report (R88). -/
theorem Report.build_kindByte (a f n : Byte) (d : List Byte) : (Report.build a f n d).kindByte = a := rfl

theorem Report.build_flags (a f n : Byte) (d : List Byte) : (Report.build a f n d).flags = f := rfl

theorem Report.build_len (a f n : Byte) (d : List Byte) : (Report.build a f n d).len = n.toNat := rfl

theorem Report.build_data (a f n : Byte) (d : List Byte) (i : Nat) (h : d.length ≤ 61) :
    readByte (Report.build a f n d).val (3 + i) = readByte d i := by
  have e : 3 + i = i + 3 := by omega
  simp only [Report.build, List.cons_append, List.nil_append, e, readByte_cons_succ, List.take_of_length_le h]
  by_cases hd : i < d.length
  · rw [readByte_append_left hd]
  · rw [readByte_append_right (by omega), readByte_zeros, readByte_of_ge (by omega)]

/-- A built report's payload is its data when the length byte says so (R88). -/
theorem Report.build_payload (a f n : Byte) (d : List Byte) (h : d.length ≤ 61) (hn : n.toNat = d.length) :
    (Report.build a f n d).payload = d := by
  have h1 : (Report.build a f n d).val.drop 3 = d.take 61 ++ zeros (61 - (d.take 61).length) := rfl
  rw [Report.payload, Report.build_len, hn, h1, List.take_of_length_le h]
  simp

/-- The framing and modifier masks of the table in terms of the flag bits (R71, R91). -/
theorem Report.flagsMatch_05 (r : Report) (s e : Bool) :
    r.flagsMatch 0x05 ((if s then 4 else 0) + (if e then 1 else 0)) = (r.flagS == s && r.flagE == e) := by
  have key : ∀ f : BitVec 8, ∀ s e : Bool,
      decide (f &&& 0x05 = (if s then 4 else 0) + (if e then 1 else 0)) =
        (f.getLsbD 2 == s && f.getLsbD 0 == e) := by decide
  exact key r.flags s e

theorem Report.flagsMatch_02 (r : Report) : r.flagsMatch 0x02 0x02 = r.flagF := by
  have key : ∀ f : BitVec 8, decide (f &&& 0x02 = 0x02) = f.getLsbD 1 := by decide
  exact key r.flags

theorem Report.flagsMatch_80 (r : Report) : r.flagsMatch 0x80 0x80 = r.flagD := by
  have key : ∀ f : BitVec 8, decide (f &&& 0x80 = 0x80) = f.getLsbD 7 := by decide
  exact key r.flags

theorem Report.flagsMatch_80_zero (r : Report) : r.flagsMatch 0x80 0x00 = !r.flagD := by
  have key : ∀ f : BitVec 8, decide (f &&& 0x80 = 0x00) = !f.getLsbD 7 := by decide
  exact key r.flags

theorem Report.flagsMatch_82_zero (r : Report) : r.flagsMatch 0x82 0x00 = (!r.flagF && !r.flagD) := by
  have key : ∀ f : BitVec 8, decide (f &&& 0x82 = 0x00) = (!f.getLsbD 1 && !f.getLsbD 7) := by decide
  exact key r.flags

end Sys2Proof

namespace Sys2Proof.Machine

/-! ### Diagnostic gather -/

/-- Bit `k` of a gathered byte is bit `p` of word `8*j + k` (R192). -/
theorem gather_getLsbD (w : List Word) (p j k : Nat) (hk : k < 8) :
    (gather w p j).getLsbD k = (w.getD (8 * j + k) 0).getLsbD p := by
  have term : ∀ k, gatherBit w p j k = if (w.getD (8 * j + k) 0).getLsbD p then 1 <<< k else 0 := by
    intro k
    have : ((w.getD (8 * j + k) 0).toNat >>> p) &&& 1 = ((w.getD (8 * j + k) 0).getLsbD p).toNat := by
      rw [Nat.and_one_is_mod, Nat.shiftRight_eq_div_pow, BitVec.getLsbD, Nat.toNat_testBit]
    rw [gatherBit, this]
    cases (w.getD (8 * j + k) 0).getLsbD p <;> simp
  have key : ∀ b0 b1 b2 b3 b4 b5 b6 b7 : Bool, ∀ k : Fin 8,
      (BitVec.ofNat 8 ((if b0 then 1 else 0) + ((if b1 then 2 else 0) + ((if b2 then 4 else 0) +
        ((if b3 then 8 else 0) + ((if b4 then 16 else 0) + ((if b5 then 32 else 0) +
        ((if b6 then 64 else 0) + (if b7 then 128 else 0))))))))).getLsbD k =
      [b0, b1, b2, b3, b4, b5, b6, b7][k] := by decide
  have h8 : List.range 8 = [0, 1, 2, 3, 4, 5, 6, 7] := by decide
  have := key ((w.getD (8 * j + 0) 0).getLsbD p) ((w.getD (8 * j + 1) 0).getLsbD p)
    ((w.getD (8 * j + 2) 0).getLsbD p) ((w.getD (8 * j + 3) 0).getLsbD p) ((w.getD (8 * j + 4) 0).getLsbD p)
    ((w.getD (8 * j + 5) 0).getLsbD p) ((w.getD (8 * j + 6) 0).getLsbD p) ((w.getD (8 * j + 7) 0).getLsbD p) ⟨k, hk⟩
  simp only [gather, h8, List.map_cons, List.map_nil, List.sum_cons, List.sum_nil, term]
  simp only [Nat.shiftLeft_eq, Nat.pow_zero, Nat.one_mul, Nat.add_zero] at *
  rw [this]
  interval_cases k <;> rfl

end Sys2Proof.Machine
end

