-- ==== Sys2Proof/Laws/State.lean ====
section
/-! SUPPORT. One lemma per field per update of the state, and the equations of the shared operations on it. -/

namespace Sys2Proof.Machine

variable (s : State)

@[simp] theorem deliver_abuf (v : PortResult) : (s.deliver v).abuf = s.abuf := rfl
@[simp] theorem deliver_evt (v : PortResult) : (s.deliver v).evt = s.evt := rfl
@[simp] theorem deliver_session (v : PortResult) : (s.deliver v).session = s.session := rfl
@[simp] theorem deliver_tlast (v : PortResult) : (s.deliver v).tlast = s.tlast := rfl
@[simp] theorem deliver_wait (v : PortResult) : (s.deliver v).wait = s.wait := rfl
@[simp] theorem deliver_pending (v : PortResult) : (s.deliver v).pending = s.pending := rfl
@[simp] theorem deliver_queue (v : PortResult) : (s.deliver v).queue = s.queue := rfl
@[simp] theorem deliver_channel (v : PortResult) : (s.deliver v).channel = s.channel := rfl
@[simp] theorem deliver_reading (v : PortResult) : (s.deliver v).reading = s.reading := rfl
@[simp] theorem deliver_sent (v : PortResult) : (s.deliver v).sent = s.sent := rfl
@[simp] theorem deliver_blocking (v : PortResult) : (s.deliver v).blocking = s.blocking := rfl
@[simp] theorem deliver_now (v : PortResult) : (s.deliver v).now = s.now := rfl
@[simp] theorem deliver_result (v : PortResult) : (s.deliver v).result = v := rfl
@[simp] theorem deliver_ret (v : PortResult) : (s.deliver v).ret = s.ret := rfl
@[simp] theorem deliver_lastRead (v : PortResult) : (s.deliver v).lastRead = s.lastRead := rfl
@[simp] theorem deliver_events (v : PortResult) : (s.deliver v).events = s.events := rfl
@[simp] theorem deliver_cfg (v : PortResult) : (s.deliver v).cfg = s.cfg := rfl

@[simp] theorem setAbuf_abuf (b : List Byte) : (s.setAbuf b).abuf = b := rfl
@[simp] theorem setAbuf_evt (b : List Byte) : (s.setAbuf b).evt = s.evt := rfl
@[simp] theorem setAbuf_session (b : List Byte) : (s.setAbuf b).session = s.session := rfl
@[simp] theorem setAbuf_tlast (b : List Byte) : (s.setAbuf b).tlast = s.tlast := rfl
@[simp] theorem setAbuf_wait (b : List Byte) : (s.setAbuf b).wait = s.wait := rfl
@[simp] theorem setAbuf_pending (b : List Byte) : (s.setAbuf b).pending = s.pending := rfl
@[simp] theorem setAbuf_queue (b : List Byte) : (s.setAbuf b).queue = s.queue := rfl
@[simp] theorem setAbuf_channel (b : List Byte) : (s.setAbuf b).channel = s.channel := rfl
@[simp] theorem setAbuf_reading (b : List Byte) : (s.setAbuf b).reading = s.reading := rfl
@[simp] theorem setAbuf_sent (b : List Byte) : (s.setAbuf b).sent = s.sent := rfl
@[simp] theorem setAbuf_blocking (b : List Byte) : (s.setAbuf b).blocking = s.blocking := rfl
@[simp] theorem setAbuf_now (b : List Byte) : (s.setAbuf b).now = s.now := rfl
@[simp] theorem setAbuf_result (b : List Byte) : (s.setAbuf b).result = s.result := rfl
@[simp] theorem setAbuf_ret (b : List Byte) : (s.setAbuf b).ret = s.ret := rfl
@[simp] theorem setAbuf_lastRead (b : List Byte) : (s.setAbuf b).lastRead = s.lastRead := rfl
@[simp] theorem setAbuf_events (b : List Byte) : (s.setAbuf b).events = s.events := rfl
@[simp] theorem setAbuf_cfg (b : List Byte) : (s.setAbuf b).cfg = s.cfg := rfl

@[simp] theorem setEvt_abuf (bit : Byte) : (s.setEvt bit).abuf = s.abuf := rfl
@[simp] theorem setEvt_evt (bit : Byte) : (s.setEvt bit).evt = evtSet s.evt bit := rfl
@[simp] theorem setEvt_session (bit : Byte) : (s.setEvt bit).session = s.session := rfl
@[simp] theorem setEvt_tlast (bit : Byte) : (s.setEvt bit).tlast = s.tlast := rfl
@[simp] theorem setEvt_wait (bit : Byte) : (s.setEvt bit).wait = s.wait := rfl
@[simp] theorem setEvt_pending (bit : Byte) : (s.setEvt bit).pending = s.pending := rfl
@[simp] theorem setEvt_queue (bit : Byte) : (s.setEvt bit).queue = s.queue := rfl
@[simp] theorem setEvt_channel (bit : Byte) : (s.setEvt bit).channel = s.channel := rfl
@[simp] theorem setEvt_reading (bit : Byte) : (s.setEvt bit).reading = s.reading := rfl
@[simp] theorem setEvt_sent (bit : Byte) : (s.setEvt bit).sent = s.sent := rfl
@[simp] theorem setEvt_blocking (bit : Byte) : (s.setEvt bit).blocking = s.blocking := rfl
@[simp] theorem setEvt_now (bit : Byte) : (s.setEvt bit).now = s.now := rfl
@[simp] theorem setEvt_result (bit : Byte) : (s.setEvt bit).result = s.result := rfl
@[simp] theorem setEvt_ret (bit : Byte) : (s.setEvt bit).ret = s.ret := rfl
@[simp] theorem setEvt_lastRead (bit : Byte) : (s.setEvt bit).lastRead = s.lastRead := rfl
@[simp] theorem setEvt_events (bit : Byte) : (s.setEvt bit).events = s.events := rfl
@[simp] theorem setEvt_cfg (bit : Byte) : (s.setEvt bit).cfg = s.cfg := rfl

@[simp] theorem clearEvt_abuf (mask : Byte) : (s.clearEvt mask).abuf = s.abuf := rfl
@[simp] theorem clearEvt_evt (mask : Byte) : (s.clearEvt mask).evt = evtClear s.evt mask := rfl
@[simp] theorem clearEvt_session (mask : Byte) : (s.clearEvt mask).session = s.session := rfl
@[simp] theorem clearEvt_tlast (mask : Byte) : (s.clearEvt mask).tlast = s.tlast := rfl
@[simp] theorem clearEvt_wait (mask : Byte) : (s.clearEvt mask).wait = s.wait := rfl
@[simp] theorem clearEvt_pending (mask : Byte) : (s.clearEvt mask).pending = s.pending := rfl
@[simp] theorem clearEvt_queue (mask : Byte) : (s.clearEvt mask).queue = s.queue := rfl
@[simp] theorem clearEvt_channel (mask : Byte) : (s.clearEvt mask).channel = s.channel := rfl
@[simp] theorem clearEvt_reading (mask : Byte) : (s.clearEvt mask).reading = s.reading := rfl
@[simp] theorem clearEvt_sent (mask : Byte) : (s.clearEvt mask).sent = s.sent := rfl
@[simp] theorem clearEvt_blocking (mask : Byte) : (s.clearEvt mask).blocking = s.blocking := rfl
@[simp] theorem clearEvt_now (mask : Byte) : (s.clearEvt mask).now = s.now := rfl
@[simp] theorem clearEvt_result (mask : Byte) : (s.clearEvt mask).result = s.result := rfl
@[simp] theorem clearEvt_ret (mask : Byte) : (s.clearEvt mask).ret = s.ret := rfl
@[simp] theorem clearEvt_lastRead (mask : Byte) : (s.clearEvt mask).lastRead = s.lastRead := rfl
@[simp] theorem clearEvt_events (mask : Byte) : (s.clearEvt mask).events = s.events := rfl
@[simp] theorem clearEvt_cfg (mask : Byte) : (s.clearEvt mask).cfg = s.cfg := rfl

@[simp] theorem raise_abuf (k : Status) (fb : Status → PortResult) : (s.raise k fb).abuf = s.abuf := rfl
@[simp] theorem raise_evt (k : Status) (fb : Status → PortResult) : (s.raise k fb).evt = s.evt := rfl
@[simp] theorem raise_session (k : Status) (fb : Status → PortResult) : (s.raise k fb).session = s.session := rfl
@[simp] theorem raise_tlast (k : Status) (fb : Status → PortResult) : (s.raise k fb).tlast = s.tlast := rfl
@[simp] theorem raise_wait (k : Status) (fb : Status → PortResult) : (s.raise k fb).wait = s.wait := rfl
@[simp] theorem raise_pending (k : Status) (fb : Status → PortResult) : (s.raise k fb).pending = s.pending := rfl
@[simp] theorem raise_queue (k : Status) (fb : Status → PortResult) : (s.raise k fb).queue = s.queue := rfl
@[simp] theorem raise_channel (k : Status) (fb : Status → PortResult) : (s.raise k fb).channel = s.channel := rfl
@[simp] theorem raise_reading (k : Status) (fb : Status → PortResult) : (s.raise k fb).reading = s.reading := rfl
@[simp] theorem raise_sent (k : Status) (fb : Status → PortResult) : (s.raise k fb).sent = s.sent := rfl
@[simp] theorem raise_blocking (k : Status) (fb : Status → PortResult) : (s.raise k fb).blocking = s.blocking := rfl
@[simp] theorem raise_now (k : Status) (fb : Status → PortResult) : (s.raise k fb).now = s.now := rfl
@[simp] theorem raise_result (k : Status) (fb : Status → PortResult) : (s.raise k fb).result = fb k := rfl
@[simp] theorem raise_ret (k : Status) (fb : Status → PortResult) : (s.raise k fb).ret = s.ret := rfl
@[simp] theorem raise_lastRead (k : Status) (fb : Status → PortResult) : (s.raise k fb).lastRead = s.lastRead := rfl
@[simp] theorem raise_events (k : Status) (fb : Status → PortResult) : (s.raise k fb).events = s.events := rfl
@[simp] theorem raise_cfg (k : Status) (fb : Status → PortResult) : (s.raise k fb).cfg = s.cfg := rfl

@[simp] theorem complete_abuf (v : HostReturn) : (s.complete v).abuf = s.abuf := rfl
@[simp] theorem complete_evt (v : HostReturn) : (s.complete v).evt = s.evt := rfl
@[simp] theorem complete_session (v : HostReturn) : (s.complete v).session = .complete := rfl
@[simp] theorem complete_tlast (v : HostReturn) : (s.complete v).tlast = s.tlast := rfl
@[simp] theorem complete_wait (v : HostReturn) : (s.complete v).wait = none := rfl
@[simp] theorem complete_pending (v : HostReturn) : (s.complete v).pending = s.pending := rfl
@[simp] theorem complete_queue (v : HostReturn) : (s.complete v).queue = s.queue := rfl
@[simp] theorem complete_channel (v : HostReturn) : (s.complete v).channel = s.channel := rfl
@[simp] theorem complete_reading (v : HostReturn) : (s.complete v).reading = s.reading := rfl
@[simp] theorem complete_sent (v : HostReturn) : (s.complete v).sent = s.sent := rfl
@[simp] theorem complete_blocking (v : HostReturn) : (s.complete v).blocking = s.blocking := rfl
@[simp] theorem complete_now (v : HostReturn) : (s.complete v).now = s.now := rfl
@[simp] theorem complete_result (v : HostReturn) : (s.complete v).result = s.result := rfl
@[simp] theorem complete_ret (v : HostReturn) : (s.complete v).ret = v := rfl
@[simp] theorem complete_lastRead (v : HostReturn) : (s.complete v).lastRead = s.lastRead := rfl
@[simp] theorem complete_events (v : HostReturn) : (s.complete v).events = s.events := rfl
@[simp] theorem complete_cfg (v : HostReturn) : (s.complete v).cfg = s.cfg := rfl

@[simp] theorem settle_abuf : s.settle.abuf = s.abuf := by unfold State.settle; split <;> rfl
@[simp] theorem settle_evt : s.settle.evt = s.evt := by unfold State.settle; split <;> rfl
@[simp] theorem settle_tlast : s.settle.tlast = s.tlast := by unfold State.settle; split <;> rfl
@[simp] theorem settle_wait : s.settle.wait = s.wait := by unfold State.settle; split <;> rfl
@[simp] theorem settle_pending : s.settle.pending = s.pending := by unfold State.settle; split <;> rfl
@[simp] theorem settle_queue : s.settle.queue = s.queue := by unfold State.settle; split <;> rfl
@[simp] theorem settle_channel : s.settle.channel = s.channel := by unfold State.settle; split <;> rfl
@[simp] theorem settle_reading : s.settle.reading = s.reading := by unfold State.settle; split <;> rfl
@[simp] theorem settle_sent : s.settle.sent = s.sent := by unfold State.settle; split <;> rfl
@[simp] theorem settle_blocking : s.settle.blocking = s.blocking := by unfold State.settle; split <;> rfl
@[simp] theorem settle_now : s.settle.now = s.now := by unfold State.settle; split <;> rfl
@[simp] theorem settle_result : s.settle.result = s.result := by unfold State.settle; split <;> rfl
@[simp] theorem settle_ret : s.settle.ret = s.ret := by unfold State.settle; split <;> rfl
@[simp] theorem settle_lastRead : s.settle.lastRead = s.lastRead := by unfold State.settle; split <;> rfl
@[simp] theorem settle_events : s.settle.events = s.events := by unfold State.settle; split <;> rfl
@[simp] theorem settle_cfg : s.settle.cfg = s.cfg := by unfold State.settle; split <;> rfl

@[simp] theorem restart_session (b : Bool) : (s.restart b).session = s.session := by unfold State.restart; split <;> rfl
@[simp] theorem restart_tlast (b : Bool) : (s.restart b).tlast = s.tlast := by unfold State.restart; split <;> rfl
@[simp] theorem restart_wait (b : Bool) : (s.restart b).wait = s.wait := by unfold State.restart; split <;> rfl
@[simp] theorem restart_pending (b : Bool) : (s.restart b).pending = s.pending := by unfold State.restart; split <;> rfl
@[simp] theorem restart_queue (b : Bool) : (s.restart b).queue = s.queue := by unfold State.restart; split <;> rfl
@[simp] theorem restart_channel (b : Bool) : (s.restart b).channel = s.channel := by unfold State.restart; split <;> rfl
@[simp] theorem restart_reading (b : Bool) : (s.restart b).reading = s.reading := by unfold State.restart; split <;> rfl
@[simp] theorem restart_sent (b : Bool) : (s.restart b).sent = s.sent := by unfold State.restart; split <;> rfl
@[simp] theorem restart_blocking (b : Bool) : (s.restart b).blocking = s.blocking := by unfold State.restart; split <;> rfl
@[simp] theorem restart_now (b : Bool) : (s.restart b).now = s.now := by unfold State.restart; split <;> rfl
@[simp] theorem restart_result (b : Bool) : (s.restart b).result = s.result := by unfold State.restart; split <;> rfl
@[simp] theorem restart_ret (b : Bool) : (s.restart b).ret = s.ret := by unfold State.restart; split <;> rfl
@[simp] theorem restart_lastRead (b : Bool) : (s.restart b).lastRead = s.lastRead := by unfold State.restart; split <;> rfl
@[simp] theorem restart_events (b : Bool) : (s.restart b).events = s.events := by unfold State.restart; split <;> rfl
@[simp] theorem restart_cfg (b : Bool) : (s.restart b).cfg = s.cfg := by unfold State.restart; split <;> rfl

@[simp] theorem recordHcf_abuf (b : Bool) : (s.recordHcf b).abuf = s.abuf := by unfold State.recordHcf; split <;> rfl
@[simp] theorem recordHcf_session (b : Bool) : (s.recordHcf b).session = s.session := by unfold State.recordHcf; split <;> rfl
@[simp] theorem recordHcf_tlast (b : Bool) : (s.recordHcf b).tlast = s.tlast := by unfold State.recordHcf; split <;> rfl
@[simp] theorem recordHcf_wait (b : Bool) : (s.recordHcf b).wait = s.wait := by unfold State.recordHcf; split <;> rfl
@[simp] theorem recordHcf_pending (b : Bool) : (s.recordHcf b).pending = s.pending := by unfold State.recordHcf; split <;> rfl
@[simp] theorem recordHcf_queue (b : Bool) : (s.recordHcf b).queue = s.queue := by unfold State.recordHcf; split <;> rfl
@[simp] theorem recordHcf_channel (b : Bool) : (s.recordHcf b).channel = s.channel := by unfold State.recordHcf; split <;> rfl
@[simp] theorem recordHcf_reading (b : Bool) : (s.recordHcf b).reading = s.reading := by unfold State.recordHcf; split <;> rfl
@[simp] theorem recordHcf_sent (b : Bool) : (s.recordHcf b).sent = s.sent := by unfold State.recordHcf; split <;> rfl
@[simp] theorem recordHcf_blocking (b : Bool) : (s.recordHcf b).blocking = s.blocking := by unfold State.recordHcf; split <;> rfl
@[simp] theorem recordHcf_now (b : Bool) : (s.recordHcf b).now = s.now := by unfold State.recordHcf; split <;> rfl
@[simp] theorem recordHcf_result (b : Bool) : (s.recordHcf b).result = s.result := by unfold State.recordHcf; split <;> rfl
@[simp] theorem recordHcf_ret (b : Bool) : (s.recordHcf b).ret = s.ret := by unfold State.recordHcf; split <;> rfl
@[simp] theorem recordHcf_lastRead (b : Bool) : (s.recordHcf b).lastRead = s.lastRead := by unfold State.recordHcf; split <;> rfl
@[simp] theorem recordHcf_events (b : Bool) : (s.recordHcf b).events = s.events := by unfold State.recordHcf; split <;> rfl
@[simp] theorem recordHcf_cfg (b : Bool) : (s.recordHcf b).cfg = s.cfg := by unfold State.recordHcf; split <;> rfl

@[simp] theorem restart_abuf (b : Bool) : (s.restart b).abuf = if s.resyncs b then [] else s.abuf := by
  unfold State.restart; split <;> simp_all

@[simp] theorem restart_evt (b : Bool) :
    (s.restart b).evt = if s.resyncs b then evtSet s.evt evtResync else s.evt := by
  unfold State.restart; split <;> simp_all

@[simp] theorem recordHcf_evt (b : Bool) :
    (s.recordHcf b).evt = if b then evtSet s.evt evtHcf else s.evt := by
  unfold State.recordHcf; split <;> simp_all

/-- Two states with equal fields are equal. -/
theorem State.eq_of_fields {s t : State} (h1 : s.abuf = t.abuf) (h2 : s.evt = t.evt) (h3 : s.session = t.session)
    (h4 : s.tlast = t.tlast) (h5 : s.wait = t.wait) (h6 : s.pending = t.pending) (h7 : s.queue = t.queue)
    (h8 : s.sent = t.sent) (h9 : s.blocking = t.blocking) (h10 : s.now = t.now) (h11 : s.result = t.result)
    (h12 : s.ret = t.ret) (h13 : s.events = t.events) (h14 : s.cfg = t.cfg) (h15 : s.channel = t.channel)
    (h16 : s.reading = t.reading) (h17 : s.lastRead = t.lastRead) : s = t := by
  cases s; cases t; simp_all

/-- A state is idle after settling exactly where no wait goes on. -/
theorem settle_session : s.settle.session =
    match s.session with
    | .resynchronized => .awaitingResponse
    | .awaitingResponse => .awaitingResponse
    | .idle => .idle
    | .complete => .idle
    | .timedOut => .idle := by
  unfold State.settle; split <;> simp_all

theorem settle_of_idle {s : State} (h : s.session = .idle) : s.settle = s := by
  simp [State.settle, h]

theorem settle_of_awaiting {s : State} (h : s.session = .awaitingResponse) : s.settle = s := by
  simp [State.settle, h]

/-- The resynchronization test in the words of R123. -/
theorem resyncs_eq (b : Bool) : s.resyncs b = (b && decide (s.abuf.length > 0)) := by
  cases h : s.abuf <;> simp [State.resyncs, State.accumulating, h]

end Sys2Proof.Machine
end

