-- ==== Sys2Proof/Laws/Ops.lean ====
section
/-! SUPPORT. What each shared operation of the machine can do, said once. -/

namespace Sys2Proof.Machine

/-! ### Sequencing -/

theorem andThen_eq_next {o : Host.Outcome State Fault Refusal} {f : State → Host.Outcome State Fault Refusal}
    {t : State} : andThen o f = .next t ↔ ∃ s, o = .next s ∧ f s = .next t := by
  cases o <;> simp [andThen]

@[simp] theorem andThen_next (s : State) (f : State → Host.Outcome State Fault Refusal) :
    andThen (.next s) f = f s := rfl

@[simp] theorem andThen_refused (r : Refusal) (f : State → Host.Outcome State Fault Refusal) :
    andThen (.refused r) f = .refused r := rfl

/-! ### EVT -/

theorem evtSet_getLsbD (e b : Byte) (i : Nat) : (evtSet e b).getLsbD i = (e.getLsbD i || b.getLsbD i) := by
  simp [evtSet]

theorem evtClear_getLsbD (e m : Byte) (i : Nat) (hi : i < 8) :
    (evtClear e m).getLsbD i = (e.getLsbD i && !(decide (i < 3) && m.getLsbD i)) := by
  have h7 : (7#8).getLsbD i = decide (i < 3) := by
    have : ∀ i : Fin 8, (7#8).getLsbD i = decide (i.val < 3) := by decide
    exact this ⟨i, hi⟩
  simp only [evtClear, BitVec.getLsbD_and, BitVec.getLsbD_not, hi, decide_true, Bool.true_and]
  rw [show (0x07 : Byte) = 7#8 from rfl, h7, Bool.and_comm (m.getLsbD i)]

/-- Setting an event keeps a reserved field that is 0 at 0 (R26). -/
theorem evtSet_reserved {e b : Byte} (he : e &&& 0xF0 = 0) (hb : b &&& 0xF0 = 0) : evtSet e b &&& 0xF0 = 0 := by
  rw [evtSet, BitVec.and_comm, BitVec.and_or_distrib_left, BitVec.and_comm _ e, BitVec.and_comm _ b, he, hb]; rfl

theorem evtClear_reserved {e m : Byte} (he : e &&& 0xF0 = 0) : evtClear e m &&& 0xF0 = 0 := by
  rw [evtClear, BitVec.and_assoc, BitVec.and_comm (~~~_), ← BitVec.and_assoc, he]; simp

/-! ### Framing (41_packet_assembler.md R123 to R130) -/

theorem overCap_eq_false {c : Params} {n : Nat} :
    Params.overCap c n = false ↔ c.bufCap.all (fun cap => decide (n ≤ cap)) = true := by
  unfold Params.overCap; cases c.bufCap <;> simp

/-- The whole effect of the framing steps when the append stays within BUF_CAP. -/
theorem assemble_of_fits (s : State) (start done hcf devinfo : Bool) (data : List Byte)
    (h : s.cfg.bufCap.all (fun cap => decide ((if s.resyncs start then [] else s.abuf).length + data.length ≤ cap))
      = true) :
    s.assemble start done hcf devinfo data = { s with
      abuf := if done then [] else (if s.resyncs start then [] else s.abuf) ++ data
      evt := (s.evt ||| if s.resyncs start then 2 else 0) ||| if hcf then 4 else 0
      result := .step
        { outcome := if done then .complete ((if s.resyncs start then [] else s.abuf) ++ data) else .incomplete
          status := .ok, ignored := false, malformed := false, resync := s.resyncs start
          hostCmdFinished := hcf, deviceInfo := devinfo } } := by
  rw [← overCap_eq_false] at h
  unfold State.assemble
  rw [restart_abuf, if_neg (by simp [h])]
  apply State.eq_of_fields <;> simp [State.finish]
  cases s.resyncs start <;> cases hcf <;> simp [evtSet, evtResync, evtHcf]

/-- The whole effect of the framing steps when the append would pass BUF_CAP. -/
theorem assemble_of_overflow (s : State) (start done hcf devinfo : Bool) (data : List Byte)
    (h : s.cfg.bufCap.all (fun cap => decide ((if s.resyncs start then [] else s.abuf).length + data.length ≤ cap))
      = false) :
    s.assemble start done hcf devinfo data = { s with
      abuf := if s.resyncs start then [] else s.abuf
      evt := (s.evt ||| if s.resyncs start then 2 else 0) ||| 8
      result := .step (StepResult.dropped .bufferOverflow) } := by
  have h' : Params.overCap s.cfg ((if s.resyncs start then [] else s.abuf).length + data.length) = true := by
    by_contra hc
    rw [Bool.not_eq_true, overCap_eq_false, h] at hc
    exact absurd hc (by simp)
  unfold State.assemble
  rw [restart_abuf, if_pos h']
  apply State.eq_of_fields <;> simp
  cases s.resyncs start <;> simp [evtSet, evtResync, evtOverflow]

/-- Either way the framing steps write nothing but ABUF, EVT and the result, and clear no event. -/
theorem assemble_frame (s : State) (start done hcf devinfo : Bool) (data : List Byte) :
    ∃ (b : List Byte) (e : Byte) (res : StepResult),
      s.assemble start done hcf devinfo data = { s with abuf := b, evt := s.evt ||| e, result := .step res } := by
  cases h : s.cfg.bufCap.all (fun cap =>
      decide ((if s.resyncs start then [] else s.abuf).length + data.length ≤ cap)) with
  | true => rw [assemble_of_fits _ _ _ _ _ _ h]; exact ⟨_, _, _, by rw [BitVec.or_assoc]⟩
  | false => rw [assemble_of_overflow _ _ _ _ _ _ h]; exact ⟨_, _, _, by rw [BitVec.or_assoc]⟩

/-- What step 0 of ASM does (R121). -/
theorem ignore_eq (s : State) : s.ignore = { s with result := .step StepResult.ofIgnored } := rfl

/-- What step 1 of ASM does (R122). -/
theorem dropMalformed_eq (s : State) (n : Byte) : s.dropMalformed n =
    { s with evt := s.evt ||| 1, result := .step (StepResult.ofMalformed (.malformedReport n)) } := rfl

/-! ### Framing in the terms of a report -/

/-- The length after the restart, in the terms of `Fits`. -/
theorem resyncs_base_length (s : State) (b : Bool) :
    (if s.resyncs b then [] else s.abuf).length = if b then 0 else s.abuf.length := by
  rw [resyncs_eq]
  cases b <;> cases h : s.abuf <;> simp

theorem fits_iff (s : State) (r : Report) (h : r.len ≤ 61) : s.Fits r ↔
    s.cfg.bufCap.all (fun cap => decide ((if s.resyncs r.flagS then [] else s.abuf).length + r.payload.length ≤ cap))
      = true := by
  rw [resyncs_base_length, Report.payload_length r h]

/-! ### The codec -/

@[simp] theorem pack_length (r : ConfigRecord) : (pack r).val.length = 250 := (pack r).property

theorem decodeConfig_frame (b : List Byte) (s : State) :
    ∃ st rec, decodeConfig b s = { s with result := .config st rec } := by
  unfold decodeConfig; split <;> exact ⟨_, _, rfl⟩

theorem unwrapConfig_frame (p : List Byte) (s : State) :
    ∃ st rec, unwrapConfig p s = { s with result := .config st rec } := by
  unfold unwrapConfig; split
  · exact ⟨_, _, rfl⟩
  · split <;> exact ⟨_, _, rfl⟩

theorem decodeIdentity_frame (p : List Byte) (s : State) :
    ∃ st id, decodeIdentity p s = { s with result := .identity st id } := by
  unfold decodeIdentity; split <;> exact ⟨_, _, rfl⟩

theorem decodeDiagnostic_frame (w : List Word) (s : State) :
    ∃ st f, decodeDiagnostic w s = { s with result := .frame st f } := by
  unfold decodeDiagnostic; split <;> exact ⟨_, _, rfl⟩

end Sys2Proof.Machine
end

