-- ==== Sys2Proof/Laws/PerInstr.lean ====
section
/-! SUPPORT. For every instruction: its encoding stands in its own row of spec/opcode_table.json. -/

namespace Sys2Proof.Laws.TableRow

open Sys2Proof Sys2Proof.Machine

/-- The byte a row's mask applies to: the select of the port, byte 1 of a report (30_encoding.md R71, R91), byte 0
of a payload (R90). -/
def matchedByte : Issue → Byte
  | .op bytes => readByte bytes 0
  | .report r => r.flags
  | .payload p => readByte p 0

/-- `mask` and `match` of the row an instruction stands in. A row that states a condition on byte 0 or 2 instead of
one on the flags has mask 0; a TAG row's byte is the tag parameter. -/
def row (c : Params) : Instr → Byte × Byte
  | .enc _ => (0x0F, 0x0)
  | .asm _ => (0x0F, 0x1)
  | .aclr => (0x0F, 0x2)
  | .inp _ => (0x0F, 0x3)
  | .eclr _ => (0x0F, 0x4)
  | .cfgd _ => (0x0F, 0x5)
  | .cfge _ => (0x0F, 0x6)
  | .cfgu _ => (0x0F, 0x7)
  | .idd _ => (0x0F, 0x8)
  | .diag _ => (0x0F, 0x9)
  | .asmMid _ => (0x05, 0x00)
  | .asmEnd _ => (0x05, 0x01)
  | .asmStart _ => (0x05, 0x04)
  | .asmSingle _ => (0x05, 0x05)
  | .asmMalformed _ => (0x00, 0x00)
  | .asmIgnored _ => (0x00, 0x00)
  | .asmHcf _ => (0x02, 0x02)
  | .asmDevinfo _ => (0x80, 0x80)
  | .inpReport _ => (0x00, 0x00)
  | .tagGetDeviceInfo _ => (0xFF, c.tags.getDeviceInfo)
  | .tagGetConfig _ => (0xFF, c.tags.getConfig)
  | .tagGetConfigV5 _ => (0xFF, c.tags.getConfigV5)
  | .tagWriteConfig _ => (0xFF, c.tags.writeConfig)
  | .tagWriteConfigV5 _ => (0xFF, c.tags.writeConfigV5)
  | .tagFactoryReset _ => (0xFF, c.tags.factoryReset)
  | .tagSetLightStrip _ => (0xFF, c.tags.setLightStrip)
  | .tagForceRecalibration _ => (0xFF, c.tags.forceRecalibration)
  | .tagGetSensorTestData _ => (0xFF, c.tags.getSensorTestData)

/-- A well-formed instruction's encoding agrees with its row under the row's mask. -/
def Statement (i : Instr) : Prop :=
  ∀ c : Params, i.WellFormed c = true → matchedByte (encode c i) &&& (row c i).1 = (row c i).2

theorem and_full (b : Byte) : b &&& 0xFF = b := by
  have h : ∀ b : BitVec 8, b &&& 0xFF = b := by decide
  exact h b

theorem and_zero (b : Byte) : b &&& 0x00 = 0x00 := by simp

theorem enc (cmd : List Byte) : Statement (.enc cmd) := fun _ _ => by simp [matchedByte, encode, row, readByte]
theorem asm (r : Report) : Statement (.asm r) := fun _ _ => by simp [matchedByte, encode, row, readByte]
theorem aclr : Statement .aclr := fun _ _ => by simp [matchedByte, encode, row, readByte]
theorem inp (r : Report) : Statement (.inp r) := fun _ _ => by simp [matchedByte, encode, row, readByte]
theorem eclr (mask : Byte) : Statement (.eclr mask) := fun _ _ => by simp [matchedByte, encode, row, readByte]
theorem cfgd (b : List Byte) : Statement (.cfgd b) := fun _ _ => by simp [matchedByte, encode, row, readByte]
theorem cfge (record : ConfigRecord) : Statement (.cfge record) := fun _ _ => by simp [matchedByte, encode, row, readByte]
theorem cfgu (p : List Byte) : Statement (.cfgu p) := fun _ _ => by simp [matchedByte, encode, row, readByte]
theorem idd (p : List Byte) : Statement (.idd p) := fun _ _ => by simp [matchedByte, encode, row, readByte]
theorem diag (w : List Word) : Statement (.diag w) := fun _ _ => by simp [matchedByte, encode, row, readByte]

theorem asmMid (r : Report) : Statement (.asmMid r) := fun c h => by
  simp only [Instr.WellFormed, Bool.and_eq_true, Report.flagsMatch, decide_eq_true_eq] at h
  exact h.1.2

theorem asmEnd (r : Report) : Statement (.asmEnd r) := fun c h => by
  simp only [Instr.WellFormed, Bool.and_eq_true, Report.flagsMatch, decide_eq_true_eq] at h
  exact h.1.2

theorem asmStart (r : Report) : Statement (.asmStart r) := fun c h => by
  simp only [Instr.WellFormed, Bool.and_eq_true, Report.flagsMatch, decide_eq_true_eq] at h
  exact h.1.2

theorem asmSingle (r : Report) : Statement (.asmSingle r) := fun c h => by
  simp only [Instr.WellFormed, Bool.and_eq_true, Report.flagsMatch, decide_eq_true_eq] at h
  exact h.1.2

theorem asmMalformed (r : Report) : Statement (.asmMalformed r) := fun _ _ => and_zero _
theorem asmIgnored (r : Report) : Statement (.asmIgnored r) := fun _ _ => and_zero _

theorem asmHcf (r : Report) : Statement (.asmHcf r) := fun c h => by
  simp only [Instr.WellFormed, Bool.and_eq_true, Report.flagsMatch, decide_eq_true_eq] at h
  exact h.1.2

theorem asmDevinfo (r : Report) : Statement (.asmDevinfo r) := fun c h => by
  simp only [Instr.WellFormed, Bool.and_eq_true, Report.flagsMatch, decide_eq_true_eq] at h
  exact h.2

theorem inpReport (r : Report) : Statement (.inpReport r) := fun _ _ => and_zero _
theorem tagGetDeviceInfo (body : List Byte) : Statement (.tagGetDeviceInfo body) := fun _ _ => and_full _
theorem tagGetConfig (body : List Byte) : Statement (.tagGetConfig body) := fun _ _ => and_full _
theorem tagGetConfigV5 (body : List Byte) : Statement (.tagGetConfigV5 body) := fun _ _ => and_full _
theorem tagWriteConfig (body : List Byte) : Statement (.tagWriteConfig body) := fun _ _ => and_full _
theorem tagWriteConfigV5 (body : List Byte) : Statement (.tagWriteConfigV5 body) := fun _ _ => and_full _
theorem tagFactoryReset (body : List Byte) : Statement (.tagFactoryReset body) := fun _ _ => and_full _
theorem tagSetLightStrip (body : List Byte) : Statement (.tagSetLightStrip body) := fun _ _ => and_full _
theorem tagForceRecalibration (body : List Byte) : Statement (.tagForceRecalibration body) := fun _ _ => and_full _
theorem tagGetSensorTestData (body : List Byte) : Statement (.tagGetSensorTestData body) := fun _ _ => and_full _

end Sys2Proof.Laws.TableRow
end

