-- ==== Sys2Proof/Tests/Slice0.lean ====
section
/-! SUPPORT. The model's own tests: each check of WellFormed refuses an ill-formed term, each constructor decodes from
a word written out from its encoding, one-step tests on the vectors of 95_test_vectors.md (V<n>, P<n>), and a witness
for the hypotheses of each statement. -/

namespace Sys2Proof.Tests

open Sys2Proof Sys2Proof.Machine

set_option Elab.async false

/-! ### Helpers -/

/-- `RPT(CI, flags, len, data)` of 30_encoding.md R88 with the suggested id. -/
def rpt (flags len : Byte) (data : List Byte) : Report := Report.build 6 flags len data

/-- `RPT3(IN, b1, b2)` of R88. -/
def rpt3 (b1 b2 : Byte) : Report := Report.build 3 b1 b2 []

/-- The reset state with ABUF and EVT given: the "state before" of a vector. -/
def before (abuf : List Byte) (evt : Byte) : State := { State.reset with abuf := abuf, evt := evt }

/-- The reset state with a finite BUF_CAP and CMD_MAX. -/
def capped (buf cmd : Nat) : State :=
  { State.reset with cfg := { Config.suggested with bufCap := some buf, cmdMax := some cmd } }

/-- Whether an outcome is a next state with a property. -/
def nextIs (o : Host.Outcome State Fault Refusal) (p : State → Bool) : Bool :=
  match o with
  | .next t => p t
  | .fault _ => false
  | .refused _ => false

/-- ASM's result as a vector writes it: outcome; status; malformed, resync, host_cmd_finished, device_info. -/
def stepped (o : StepOutcome) (k : Status) (malformed resync hcf devinfo : Bool) : PortResult :=
  .step { outcome := o, status := k, ignored := false, malformed := malformed, resync := resync,
          hostCmdFinished := hcf, deviceInfo := devinfo }

/-- "after": result, ABUF and EVT. -/
def after (v : PortResult) (abuf : List Byte) (evt : Byte) (t : State) : Bool :=
  decide (t.result = v ∧ t.abuf = abuf ∧ t.evt = evt)

/-- `cmd[i] = (7*i + 1) mod 256`, the command of V10 to V17. -/
def vecCmd (n : Nat) : List Byte := (List.range n).map fun i => BitVec.ofNat 8 (7 * i + 1)

/-- `b[i] = (5*i + 1) mod 256`, the image of V52. -/
def vecImage : Bytes 250 := Vec.tab 250 fun i => BitVec.ofNat 8 (5 * i + 1)

/-- The 23 bytes of V61. -/
def vecIdentity : List Byte :=
  [0x69, 0, 1, 0, 0, 1, 2, 3, 4, 5, 6, 7, 8, 9, 0xA, 0xB, 0xC, 0xD, 0xE, 0xF, 5, 0, 0x0A]

/-- The 80 words of V40. -/
def vecWords : List Word :=
  [0x0100, 0x0109, 0x0100, 0x0008, 0x0000, 0x0000, 0x0008, 0x0000] ++
  [0x0008, 0x0100, 0x0001, 0x0100, 0x0001, 0x0101, 0x0000, 0x0100] ++
  [0x0000, 0x0101, 0x0000, 0x0100, 0x0001, 0x0100, 0x0000, 0x0100] ++
  [0x0001, 0x0109, 0x0009, 0x0109, 0x0009, 0x0109, 0x0009, 0x0109] ++
  [0x0009, 0x0109, 0x0009, 0x0109, 0x0009, 0x0109, 0x0009, 0x0109] ++
  [0x0000, 0x0100, 0x0000, 0x0100, 0x0008, 0x0100, 0x0000, 0x0100] ++
  [0x0008, 0x0108, 0x0008, 0x0100, 0x0000, 0x0108, 0x0000, 0x0101] ++
  [0x0000, 0x0100, 0x0000, 0x0101, 0x0000, 0x0101, 0x0001, 0x0101] ++
  [0x0001, 0x0101, 0x0000, 0x0100, 0x0000, 0x0100, 0x0000, 0x0100] ++
  [0x0109, 0x0108, 0x0109, 0x0108, 0x0108, 0x0101, 0x0100, 0x0101]

/-- An instruction is well-formed under the suggested parameters. -/
def okInstr (i : Instr) : Bool := i.WellFormed Config.suggested

/-- The reset state with `cmd` outstanding until 1000 ms and reports queued. -/
def waitingFor (cmd : List Byte) (ackOnly : Bool) (queue : List Report) : State :=
  { State.reset with session := .awaitingResponse, wait := some ⟨cmd, ackOnly, 1000⟩, queue := queue }

/-! ### WellFormed refuses (00_scope.md R8, 30_encoding.md R91) -/

theorem test_wf_enc_over_cmdMax : (Instr.enc (zeros 3)).WellFormed (capped 61 2).cfg = false := by decide
theorem test_wf_enc_at_cmdMax : (Instr.enc (zeros 2)).WellFormed (capped 61 2).cfg = true := by decide
theorem test_wf_mid : okInstr (.asmMid (rpt 0x01 0 [])) = false := by decide
theorem test_wf_end : okInstr (.asmEnd (rpt 0x05 0 [])) = false := by decide
theorem test_wf_start : okInstr (.asmStart (rpt 0x05 0 [])) = false := by decide
theorem test_wf_single : okInstr (.asmSingle (rpt 0x04 0 [])) = false := by decide
theorem test_wf_framing_modifier : okInstr (.asmMid (rpt 0x02 0 [])) = false := by decide
theorem test_wf_framing_length : okInstr (.asmMid (rpt 0x00 62 [])) = false := by decide
theorem test_wf_framing_id : okInstr (.asmMid (rpt3 0 0)) = false := by decide
theorem test_wf_malformed : okInstr (.asmMalformed (rpt 0x00 61 [])) = false := by decide
theorem test_wf_ignored : okInstr (.asmIgnored (rpt 0x00 0 [])) = false := by decide
theorem test_wf_hcf : okInstr (.asmHcf (rpt 0x01 0 [])) = false := by decide
theorem test_wf_devinfo : okInstr (.asmDevinfo (rpt 0x03 0 [])) = false := by decide
theorem test_wf_input : okInstr (.inpReport (rpt 0x00 0 [])) = false := by decide

/-! ### Decoding: words written out from R85 and R88 (port), R71, R74 and R75 (report), R90 (payload) -/

/-- What the decoder reads, or nothing. -/
def decoded (w : Issue) : Option Instr := (decode Config.suggested w).toOption

theorem test_decode_enc : decoded (.op [0x00, 0x69, 0x01]) = some (.enc [0x69, 0x01]) := by decide
theorem test_decode_asm : decoded (.op ([0x01, 0x06, 0x04, 0x01, 0xAA] ++ zeros 60)) =
    some (.asm (rpt 0x04 0x01 [0xAA])) := by decide
theorem test_decode_aclr : decoded (.op [0x02]) = some .aclr := by decide
theorem test_decode_inp : decoded (.op ([0x03, 0x03, 0x05, 0x01] ++ zeros 61)) = some (.inp (rpt3 0x05 0x01)) := by
  decide
theorem test_decode_eclr : decoded (.op [0x04, 0x07]) = some (.eclr 0x07) := by decide
theorem test_decode_cfgd : decoded (.op [0x05, 0xFF, 0x05]) = some (.cfgd [0xFF, 0x05]) := by decide
theorem test_decode_cfge : decoded (.op (0x06 :: zeros 432)) = some (.cfge (unpack (Vec.tab 250 fun _ => 0))) := by
  decide +kernel
theorem test_decode_cfgu : decoded (.op [0x07, 0x47, 0x00]) = some (.cfgu [0x47, 0x00]) := by decide
theorem test_decode_idd : decoded (.op [0x08, 0x69]) = some (.idd [0x69]) := by decide
theorem test_decode_diag : decoded (.op [0x09, 0x34, 0x12, 0xCD, 0xAB]) = some (.diag [0x1234, 0xABCD]) := by decide
theorem test_decode_mid : decoded (.report (rpt 0x78 61 [])) = some (.asmMid (rpt 0x78 61 [])) := by decide
theorem test_decode_end : decoded (.report (rpt 0x01 0 [])) = some (.asmEnd (rpt 0x01 0 [])) := by decide
theorem test_decode_start : decoded (.report (rpt 0x04 0 [])) = some (.asmStart (rpt 0x04 0 [])) := by decide
theorem test_decode_single : decoded (.report (rpt 0x05 0 [])) = some (.asmSingle (rpt 0x05 0 [])) := by decide
theorem test_decode_malformed : decoded (.report (rpt 0x87 62 [])) = some (.asmMalformed (rpt 0x87 62 [])) := by decide
theorem test_decode_ignored : decoded (.report (Report.build 0x77 0x05 0 [])) =
    some (.asmIgnored (Report.build 0x77 0x05 0 [])) := by decide
theorem test_decode_hcf : decoded (.report (rpt 0x03 0 [])) = some (.asmHcf (rpt 0x03 0 [])) := by decide
theorem test_decode_devinfo : decoded (.report (rpt 0x87 0 [])) = some (.asmDevinfo (rpt 0x87 0 [])) := by decide
theorem test_decode_input : decoded (.report (rpt3 0x05 0x01)) = some (.inpReport (rpt3 0x05 0x01)) := by decide
theorem test_decode_tags :
    decoded (.payload [0x69, 1]) = some (.tagGetDeviceInfo [1]) ∧
    decoded (.payload [0x67, 1]) = some (.tagGetConfig [1]) ∧
    decoded (.payload [0x47, 1]) = some (.tagGetConfigV5 [1]) ∧
    decoded (.payload [0x77, 1]) = some (.tagWriteConfig [1]) ∧
    decoded (.payload [0x57, 1]) = some (.tagWriteConfigV5 [1]) ∧
    decoded (.payload [0x66]) = some (.tagFactoryReset []) ∧
    decoded (.payload [0x4C]) = some (.tagSetLightStrip []) ∧
    decoded (.payload [0x43]) = some (.tagForceRecalibration []) ∧
    decoded (.payload [0x79, 1]) = some (.tagGetSensorTestData [1]) := by decide
theorem test_decode_refusals :
    decode Config.suggested (.op []) = .error .emptyPort ∧
    decode Config.suggested (.op [0x0A]) = .error (.unassignedOp 0xA) ∧
    decode Config.suggested (.op [0x10]) = .error (.selectTooWide 0x10) ∧
    decode Config.suggested (.op [0x01, 0x06]) = .error (.operandSize 1 1) ∧
    decode Config.suggested (.op [0x09, 0x34]) = .error (.halfWord 1) ∧
    decode Config.suggested (.op (0x06 :: 0x00 :: 0x01 :: zeros 430)) = .error .valueTooWide ∧
    decode Config.suggested (.payload [0x00]) = .error (.unknownTag (some 0x00)) := by decide +kernel

/-- One table word of each of the three places: `decodeTableWord` reads it and the next step runs it (log 5). -/
theorem test_table_words :
    decodeTableWord 8 0x02 = some .aclr ∧
    decodeTableWord 8 0x85 = some (.asmDevinfo (rpt 0x85 0 [])) ∧
    decodeTableWord 8 0x67 = some (.tagGetConfig []) ∧
    nextIs (step (State.reset.withFetchWord 8 0x85)) (after (stepped (.complete []) .ok false false false true) [] 0)
      = true := by decide +kernel

/-! ### The parameters, the field table and the tables of the spec -/

theorem test_parameters : Config.suggested.Ok := by decide +kernel

/-- Every byte of the record lies in exactly one field, and there are 216 values (30_encoding.md R78). -/
theorem test_field_table :
    fieldElements.flatMap (fun x => (List.range x.2).map (x.1 + ·)) = List.range 250 ∧ fieldElements.length = 216 := by
  decide +kernel

theorem test_field_indices :
    fieldTable.map FieldRow.index =
      ((fieldTable.map FieldRow.count).scanl (· + ·) 0).dropLast := by decide +kernel

theorem test_error_codes :
    [Status.ok, .malformedReport 62, .timeout, .connectionNotFound, .invalidConfigPacket, .rateLimited 1, .badLength 0,
      .unknownOpcode none, .bufferOverflow].map Status.code = [0, 1, 3, 4, 5, 6, 7, 8, 9] := by decide

/-- On a resynchronization the error kind 2 is the bit, beside status OK (60_exceptions.md R240, R242). -/
theorem test_resync_code : nextIs (exec (.asm (rpt 4 2 [0x0B, 0x0C])) (before [0x0A] 0)) (fun t =>
    match t.result with
    | .step r => decide (r.errorCodes = [2])
    | _ => false) = true := by decide

/-! ### ENC -/

theorem test_enc_V10 : exec (.enc []) State.reset =
    .next { State.reset with result := .reports [Report.build 5 5 0 []] } := rfl

theorem test_enc_V14 : nextIs (exec (.enc (vecCmd 62)) State.reset) (fun t =>
    decide (t.result = .reports [Report.build 5 4 61 (vecCmd 61), Report.build 5 1 1 [0xAC]])) = true := by
  decide +kernel

theorem test_enc_V17 : nextIs (exec (.enc (vecCmd 252)) State.reset) (fun t =>
    decide (t.encoded.map (fun r => (r.flags, r.len, readByte r.val 3)) =
      [(0x04, 61, 0x01), (0x00, 61, 0xAC), (0x00, 61, 0x57), (0x00, 61, 0x02), (0x01, 8, 0xAD)])) = true := by
  decide +kernel

/-! ### ASM, ACLR, INP, ECLR -/

theorem test_asm_V25 : nextIs (exec (.asm (rpt 0x05 1 [0x0B])) (before [0x0A] 0))
    (after (stepped (.complete [0x0B]) .ok false true false false) [] 0x02) = true := by decide

theorem test_asm_V28 : nextIs (exec (.asm (rpt 0x03 200 [])) (before [0x0A] 0))
    (after (stepped .incomplete (.malformedReport 200) true false false false) [0x0A] 0x01) = true := by decide

theorem test_mid_V20 : nextIs (exec (.asmMid (rpt 0 3 [0x0A, 0x0B, 0x0C])) State.reset)
    (after (stepped .incomplete .ok false false false false) [0x0A, 0x0B, 0x0C] 0) = true := by decide

theorem test_end_V24 : nextIs (exec (.asmEnd (rpt 1 1 [0x0B])) (before [0x0A] 0))
    (after (stepped (.complete [0x0A, 0x0B]) .ok false false false false) [] 0) = true := by decide

theorem test_start_V26 : nextIs (exec (.asmStart (rpt 4 2 [0x0B, 0x0C])) (before [0x0A] 0))
    (after (stepped .incomplete .ok false true false false) [0x0B, 0x0C] 0x02) = true := by decide

/-- V22: an empty start does not resynchronize over another. -/
theorem test_start_V22 : nextIs (exec (.asmStart (rpt 4 0 [])) State.reset)
    (after (stepped .incomplete .ok false false false false) [] 0) = true := by decide

/-- V31: bits 3 to 6 are ignored. -/
theorem test_single_V31 : nextIs (exec (.asmSingle (rpt 0x7D 1 [0x58])) State.reset)
    (after (stepped (.complete [0x58]) .ok false false false false) [] 0) = true := by decide

theorem test_malformed_V27 : nextIs (exec (.asmMalformed (rpt 4 62 [])) (before [0x0A] 0))
    (after (stepped .incomplete (.malformedReport 62) true false false false) [0x0A] 0x01) = true := by decide

theorem test_ignored_V38 : nextIs (exec (.asmIgnored (Report.build 0x77 4 1 [0x0B])) (before [0x0A] 0))
    (after (.step StepResult.ofIgnored) [0x0A] 0) = true := by decide

theorem test_hcf_V29 : nextIs (exec (.asmHcf (rpt 2 0 [])) State.reset)
    (after (stepped .incomplete .ok false false true false) [] 0x04) = true := by decide

theorem test_devinfo_V30 : nextIs (exec (.asmDevinfo (rpt 0x85 1 [0x58])) State.reset)
    (after (stepped (.complete [0x58]) .ok false false false true) [] 0) = true := by decide

/-- The finite-buffer sequence after V39, second report: dropped, nothing finalized although E was set. -/
theorem test_asm_overflow : nextIs (exec (.asm (rpt 1 1 [2])) { capped 61 0 with abuf := List.replicate 61 1 })
    (after (stepped .incomplete .bufferOverflow false false false false) (List.replicate 61 1) 0x08) = true := by
  decide +kernel

theorem test_aclr_V34 : nextIs (exec .aclr (before [0x0A, 0x0B, 0x0C] 2)) (after .none [] 2) = true := by decide

theorem test_inp_V35 : nextIs (exec (.inp (rpt3 0x05 0x01)) (before [0x0A] 0))
    (after (.input false 0b100000101#9) [0x0A] 0) = true := by decide

theorem test_inp_other_kind : nextIs (exec (.inp (rpt 0x05 0x01 [])) State.reset) (after (.input true 0) [] 0) = true :=
  by decide

theorem test_input_row : nextIs (exec (.inpReport (rpt3 0x00 0xFE)) State.reset) (after (.input false 0) [] 0) = true :=
  by decide

theorem test_eclr_V36 : nextIs (exec (.eclr 0x04) (before [] 0x06)) (after .none [] 0x02) = true := by decide

theorem test_eclr_V39 : nextIs (exec (.eclr 0xFF) (before [] 0x0F)) (after .none [] 0x08) = true := by decide

/-! ### CFGD, CFGE, CFGU, IDD, DIAG -/

theorem test_cfgd_V52 : nextIs (exec (.cfgd vecImage.val) State.reset) (fun t =>
    match t.result with
    | .config .ok r => decide (r.masterVersion = 1 ∧ r.panelDebounceMicroseconds = 10532 ∧
        r.platformStripColor.val = [251, 0, 5] ∧ r.autoLightPanelMask = 3850 ∧
        (r.panelSettings.val.getD 8 (unpackPanel [] 0)).reserved = 58591 ∧ r.preDetailsDelayMilliseconds = 233 ∧
        r.padding.val.head? = some 238 ∧ r.padding.val.getLast? = some 222)
    | _ => false) = true := by decide +kernel

theorem test_cfgd_V50 : nextIs (exec (.cfgd Config.suggestedDefault.val) State.reset) (fun t =>
    match t.result with
    | .config .ok r => decide (r.panelDebounceMicroseconds = 4000 ∧ r.autoCalibrationMaxTare = 0xFFFF ∧
        r.autoCalibrationSamplesPerAverage = 500 ∧ r.autoLightsTimeout = 7 ∧ r.preDetailsDelayMilliseconds = 5)
    | _ => false) = true := by decide +kernel

/-- The round trip of V52. -/
theorem test_cfge_V52 : nextIs (exec (.cfge (unpack vecImage)) State.reset) (fun t =>
    decide (t.result = .image vecImage)) = true := by decide +kernel

/-- V56, first case: four bytes of the response, then the default. -/
theorem test_cfgu_V56 : nextIs (exec (.cfgu [0x47, 4, 1, 2, 3, 4, 0x0A]) State.reset) (fun t =>
    match t.result with
    | .config .ok r => decide (r.flags = 3 ∧ r.debounceNodelayMilliseconds = 4 ∧ r.panelDebounceMicroseconds = 4000)
    | _ => false) = true := by decide +kernel

theorem test_cfgu_V55 : nextIs (exec (.cfgu [0x47, 0xFA, 0]) State.reset) (fun t =>
    decide (t.result = .config .invalidConfigPacket (unpack Config.suggestedDefault))) = true := by decide +kernel

theorem test_idd_V61 : nextIs (exec (.idd vecIdentity) State.reset) (fun t =>
    match t.result with
    | .identity .ok d => decide (d.player = 2 ∧ d.firmwareVersion = 5 ∧
        String.ofList d.serialHex.val = "000102030405060708090A0B0C0D0E0F")
    | _ => false) = true := by decide +kernel

theorem test_idd_V62 : nextIs (exec (.idd (vecIdentity.take 22)) State.reset) (fun t =>
    match t.result with
    | .identity k d => decide (k = .badLength 22 ∧ d.player = 1)
    | _ => false) = true := by decide +kernel

theorem test_diag_V40 : nextIs (exec (.diag vecWords) State.reset) (fun t =>
    match t.result with
    | .frame .ok f => decide (f.val.map (Option.map fun x => (x.badSensor, x.sensor.val, x.dip, x.badSensorJumper)) =
        [some (0b0000, [4660, -1, -32768, 1000], 5, 0b1010), none, none, some (0b1001, [1, -2, 10000, 0], 15, 0b0001),
          none, none, none, none, none])
    | _ => false) = true := by decide +kernel

theorem test_diag_V43 : nextIs (exec (.diag (vecWords.take 79)) State.reset) (fun t =>
    match t.result with
    | .frame k f => decide (k = .badLength 79 ∧ f.val = List.replicate 9 none)
    | _ => false) = true := by decide +kernel

/-! ### Response dispatch -/

theorem test_tag_device_info : nextIs (exec (.tagGetDeviceInfo (vecIdentity.drop 1)) State.reset) (fun t =>
    match t.result with
    | .identity .ok d => decide (d.player = 2)
    | _ => false) = true := by decide +kernel

theorem test_tag_get_config_v5 : nextIs (exec (.tagGetConfigV5 (0xFA :: vecImage.val)) State.reset) (fun t =>
    decide (t.result = .config .ok (unpack vecImage))) = true := by decide +kernel

theorem test_tag_write_config_v5 : nextIs (exec (.tagWriteConfigV5 []) State.reset) (fun t =>
    match t.result with
    | .config k _ => decide (k = .invalidConfigPacket)
    | _ => false) = true := by decide +kernel

theorem test_tags_recognised :
    nextIs (exec (.tagGetConfig [1]) State.reset) (after (.recognised [0x67, 1]) [] 0) = true ∧
    nextIs (exec (.tagWriteConfig [1]) State.reset) (after (.recognised [0x77, 1]) [] 0) = true ∧
    nextIs (exec (.tagFactoryReset []) State.reset) (after (.recognised [0x66]) [] 0) = true ∧
    nextIs (exec (.tagSetLightStrip []) State.reset) (after (.recognised [0x4C]) [] 0) = true ∧
    nextIs (exec (.tagForceRecalibration []) State.reset) (after (.recognised [0x43]) [] 0) = true := by decide

/-- The stream of V40 behind three bytes of header (log 9). -/
theorem test_tag_sensor_data : nextIs (exec (.tagGetSensorTestData ([0, 80] ++ bytesOfWords vecWords)) State.reset)
    (fun t =>
      match t.result with
      | .frame .ok f => decide (f.val.map Option.isSome = [true, false, false, true, false, false, false, false, false])
      | _ => false) = true := by decide +kernel

/-! ### The host -/

/-- V70: a write at 999 ms is rejected with 1 ms to wait. -/
theorem test_rate_V70 : nextIs (handle (.writeConfig 5 (unpack vecImage) 10 []) { State.reset with tlast := some 0, now := 999 })
    (fun t => decide (t.ret = .error (.rateLimited 1) ∧ t.tlast = some 0)) = true := by decide +kernel

/-- The size byte and the tag of a write request follow the firmware version at its boundary (R218, R223). -/
theorem test_write_variant :
    (buildWriteCmd Config.suggested 5 (unpack vecImage)).take 2 = [0x57, 250] ∧
    (buildWriteCmd Config.suggested 4 (unpack vecImage)).head? = some 0x77 := by decide +kernel

/-- R210: nothing is "empty" one millisecond before the timeout has elapsed. -/
theorem test_read_empty : nextIs (handle .readEmpty { State.reset with reading := some 10, now := 9 })
    (fun t => decide (t.reading = some 10 ∧ t.lastRead = .none)) = true := by decide

/-- P3 steps 3 and 4: the identity response ends the wait. -/
theorem test_P3 : nextIs (handle .take { State.reset with
      session := .awaitingResponse
      wait := some ⟨[0x69], false, 1000⟩
      queue := [rpt 0x87 23 vecIdentity] })
    (fun t => decide (t.ret = .payload vecIdentity ∧ t.session = .complete ∧ t.evt = 4 ∧ t.abuf = [])) = true := by
  decide +kernel

/-! ### Witnesses: concrete values that meet the hypotheses of each statement that has some, each clause at a boundary
value of its range -/

/-- A state whose ABUF and BUF_CAP leave room for exactly `61 - n` bytes. -/
def filled (n : Nat) : State := { capped 61 62 with abuf := List.replicate n 1 }

theorem witness_EncReportImages :
    (capped 61 62).cfg.cmdMax.all (fun m => decide ((vecCmd 62).length ≤ m)) = true ∧
    State.reset.cfg.cmdMax.all (fun m => decide ((vecCmd 252).length ≤ m)) = true := by decide +kernel

theorem witness_EncReconstructsCommand :
    (capped 61 62).cfg.cmdMax.all (fun m => decide ((vecCmd 62).length ≤ m)) = true := by decide +kernel

/-- Both sides of the equivalence occur. -/
theorem witness_EncRefusesOnlyOverCmdMax :
    exec (.enc (zeros 3)) (capped 61 2) = .refused (.commandTooLong 3) ∧
    nextIs (exec (.enc (zeros 2)) (capped 61 2)) (fun _ => true) = true := ⟨rfl, by decide⟩

theorem witness_AsmIgnoresOtherKinds : readByte (rpt3 5 1).val 0 ≠ State.reset.cfg.ridCmdIn := by decide

theorem witness_AsmDropsMalformed :
    readByte (rpt 4 62 []).val 0 = State.reset.cfg.ridCmdIn ∧ 61 < (readByte (rpt 4 62 []).val 2).toNat := by decide

/-- The append fills BUF_CAP exactly; and a start flag makes room. -/
theorem witness_AsmWellFormedStep :
    (filled 60).Accepts (rpt 1 1 [2]) ∧ (filled 60).Fits (rpt 1 1 [2]) ∧
    (filled 61).Accepts (rpt 4 61 []) ∧ (filled 61).Fits (rpt 4 61 []) := by decide

theorem witness_AsmOverflowDropsReport :
    (filled 61).cfg.Ok ∧ (filled 61).Accepts (rpt 1 1 [2]) ∧ ¬ (filled 61).Fits (rpt 1 1 [2]) := by decide +kernel

theorem witness_AsmFramingTransition :
    (filled 1).Accepts (rpt 5 0 []) ∧ (filled 1).Fits (rpt 5 0 []) ∧
    (filled 0).Accepts (rpt 0 0 []) ∧ (filled 0).Fits (rpt 0 0 []) := by decide

theorem witness_AsmMidEndRowsAppend :
    ((filled 60).Accepts (rpt 0 1 [2]) ∧ (filled 60).Fits (rpt 0 1 [2]) ∧ (rpt 0 1 [2]).flagS = false ∧
      (rpt 0 1 [2]).flagE = false) ∧
    ((filled 60).Accepts (rpt 1 1 [2]) ∧ (filled 60).Fits (rpt 1 1 [2]) ∧ (rpt 1 1 [2]).flagS = false ∧
      (rpt 1 1 [2]).flagE = true) := by decide

theorem witness_AsmStartSingleRowsRestart :
    ((filled 61).Accepts (rpt 4 61 []) ∧ (filled 61).Fits (rpt 4 61 []) ∧ (rpt 4 61 []).flagS = true ∧
      (rpt 4 61 []).flagE = false) ∧
    ((filled 61).Accepts (rpt 5 61 []) ∧ (filled 61).Fits (rpt 5 61 []) ∧ (rpt 5 61 []).flagS = true ∧
      (rpt 5 61 []).flagE = true) := by decide

theorem witness_AsmDroppingRows :
    (Instr.asmMalformed (rpt 4 62 [])).WellFormed State.reset.cfg = true ∧
    (Instr.asmIgnored (Report.build 0x77 4 1 [])).WellFormed State.reset.cfg = true := by decide

theorem witness_AsmModifierRowsKeepFraming :
    ((filled 60).Accepts (rpt 3 1 [2]) ∧ (filled 60).Fits (rpt 3 1 [2]) ∧ (rpt 3 1 [2]).flagF = true) ∧
    ((filled 61).Accepts (rpt 0x85 1 [2]) ∧ (filled 61).Fits (rpt 0x85 1 [2]) ∧ (rpt 0x85 1 [2]).flagD = true) := by
  decide

theorem witness_AbufHiddenUntilFinalized :
    State.reset.cfg.bufCap = none ∧ ([0x0B] = ([] : List Byte) ↔ (before [0x0A] 0).abuf = []) ∧
    (readByte (rpt 4 2 [1, 2]).val 1).getLsbD 0 = false ∧
    ∃ t, exec (.asm (rpt 4 2 [1, 2])) (before [0x0A] 0) = .next t := ⟨rfl, by decide, by decide, _, rfl⟩

theorem witness_ReassemblyLaw :
    (filled 0).abuf = [] ∧
    (∀ r ∈ [rpt 4 60 []] ++ [rpt 1 1 []], (filled 0).Accepts r) ∧
    (∀ r ∈ ([rpt 4 60 []] ++ [rpt 1 1 []]).tail, r.flagS = false) ∧
    (∀ r ∈ [rpt 4 60 []], r.flagE = false) ∧ (rpt 1 1 []).flagE = true ∧
    (filled 0).cfg.bufCap.all
      (fun cap => decide ((([rpt 4 60 []] ++ [rpt 1 1 []]).map Report.len).sum ≤ cap)) = true := by decide

theorem witness_EncodeThenAssembleRoundTrip :
    (filled 0).abuf = [] ∧ (filled 0).cfg.cmdMax.all (fun m => decide ((vecCmd 61).length ≤ m)) = true ∧
    (filled 0).cfg.bufCap.all (fun cap => decide ((vecCmd 61).length ≤ cap)) = true := by decide +kernel

/-- The first value of the first sub-record and the last of the last (V52). -/
theorem witness_CfgdReadsFieldTable :
    ((unpack vecImage).panelSettings.val[8]?).isSome = true ∧ (recordValues (unpack vecImage))[49]? = some 25 ∧
    (recordValues (unpack vecImage))[49 + 13 * 8 + 12]? = some 58591 := by decide +kernel

theorem witness_CfgdRejectsWrongLength :
    (zeros 249).length ≠ 250 ∧ (zeros 251).length ≠ 250 ∧ ([] : List Byte).length ≠ 250 := by decide +kernel

/-- Both ends of the byte range for both widths: the first row and the last two bytes of the last word field. -/
theorem witness_CfgeWritesFieldTable :
    fieldElements[0]? = some (0, 1) ∧ fieldElements[165]? = some (198, 2) ∧ fieldElements[215]? = some (249, 1) ∧
    (recordValues (unpack vecImage))[215]? = some 222 := by decide +kernel

/-- Size 0 with nothing behind it, and size 255 with exactly 255 bytes behind it. -/
theorem witness_CfguOverlaysDefault :
    (2 ≤ [0x47#8, 0x00].length ∧ 2 + (readByte [0x47, 0x00] 1).toNat ≤ [0x47#8, 0x00].length) ∧
    (2 ≤ (0x47#8 :: 0xFF :: zeros 255).length ∧
      2 + (readByte (0x47 :: 0xFF :: zeros 255) 1).toNat ≤ (0x47#8 :: 0xFF :: zeros 255).length) := by decide +kernel

theorem witness_CfguRejectsShortPayload :
    [0x47#8].length < 2 ∧ (0x47#8 :: 0xFF :: zeros 254).length < 2 + (readByte (0x47 :: 0xFF :: zeros 254) 1).toNat := by
  decide +kernel

theorem witness_IddReadsIdentity : 23 ≤ vecIdentity.length ∧ vecIdentity.length = 23 := by decide

theorem witness_IddRejectsShortPayload : (vecIdentity.take 22).length < 23 := by decide

/-- A present panel (0) and an absent one (8), the first and the last, of exactly 80 words. -/
theorem witness_DiagDecodesPanels :
    80 ≤ vecWords.length ∧
    (∀ j < 10, ∀ k < 8, (readByte (panelRecord vecWords 0).val j).getLsbD k = (vecWords.getD (8 * j + k) 0).getLsbD 0) ∧
    (readByte (panelRecord vecWords 0).val 0).toNat % 8 = 2 ∧
    (∀ j < 10, ∀ k < 8, (readByte (panelRecord vecWords 8).val j).getLsbD k = (vecWords.getD (8 * j + k) 0).getLsbD 8) ∧
    (readByte (panelRecord vecWords 8).val 0).toNat % 8 ≠ 2 := by decide +kernel

theorem witness_DiagLengthRule :
    (vecWords.take 79).length < 80 ∧ ([] : List Word).length < 80 ∧ 80 ≤ (vecWords ++ [0xFFFF]).length := by
  decide +kernel

/-- Two inputs that agree in bit 8 only: every other bit of the second is 0. -/
theorem witness_DiagPanelsIndependent :
    80 ≤ vecWords.length ∧ 80 ≤ (vecWords.map (· &&& 0x0100)).length ∧
    (∀ i < 80, (vecWords.getD i 0).getLsbD 8 = ((vecWords.map (· &&& 0x0100)).getD i 0).getLsbD 8) ∧
    vecWords ≠ vecWords.map (· &&& 0x0100) := by decide +kernel

/-- A state that dispatches the payload `p`. -/
def dispatching (p : List Byte) : State := { State.reset with events := [.dispatch], pending := some p }

theorem witness_DispatchFailsClosed :
    (dispatching [0x00, 0x69]).events = .dispatch :: [] ∧ (dispatching [0x00, 0x69]).pending = some [0x00, 0x69] ∧
    (0x00#8 ∉ (dispatching [0x00, 0x69]).cfg.tags.toList) ∧ ([] : List Byte).head? = none := by decide

theorem witness_DecodeOfEncode :
    Config.suggested.Ok ∧ (Instr.asmHcf (rpt 0x07 61 [])).WellFormed Config.suggested = true ∧
    (Instr.cfge (unpack vecImage)).WellFormed Config.suggested = true := by decide +kernel

theorem witness_EncodeOfDecode :
    decode Config.suggested (.op [0x04, 0xFF]) = .ok (.eclr 0xFF) ∧
    decode Config.suggested (.report (rpt 0xFF 62 [])) = .ok (.asmMalformed (rpt 0xFF 62 [])) ∧
    decode Config.suggested (.payload [0x79]) = .ok (.tagGetSensorTestData []) := by decide

theorem witness_UnassignedSelectsRejected :
    0xA ≤ (0x0A#8).toNat ∧ (0x0F#8).toNat < 16 ∧ ¬ (0x10#8).toNat < 16 ∧ 0xA ≤ (0x10#8).toNat := by decide

/-- An operation on the port, a report at an idle session, a returned payload. -/
theorem witness_StepRunsDecodedInstruction :
    (({ State.reset with events := [.issue [0x02]] } : State).events = .issue [0x02] :: [] ∧
      decode Config.suggested (.op [0x02]) = .ok .aclr) ∧
    (({ State.reset with events := [.take], queue := [rpt 0 1 [7]] } : State).queue = rpt 0 1 [7] :: [] ∧
      State.reset.session = .idle ∧ State.reset.wait = none ∧
      decode Config.suggested (.report (rpt 0 1 [7])) = .ok (.asmMid (rpt 0 1 [7])) ∧
      exec (.asmMid (rpt 0 1 [7])) { State.reset with events := [], queue := [] } =
        .next { before [7] 0 with result := stepped .incomplete .ok false false false false }) ∧
    ((dispatching [0x4C]).pending = some [0x4C] ∧
      decode Config.suggested (.payload [0x4C]) = .ok (.tagSetLightStrip [])) := by
  refine ⟨⟨rfl, by decide⟩, ⟨rfl, rfl, rfl, by decide, rfl⟩, rfl, by decide⟩

/-- For the first clause alone an ASM, for the ABUF clause a CFGD, for the EVT clause an ACLR. -/
theorem witness_ExecWritesOnlyAbufEvtResult :
    (∃ t, exec (.asm (rpt 7 1 [2])) (before [1] 0) = .next t) ∧
    (∃ t, exec (.cfgd []) (before [1] 0) = .next t) ∧ (∃ t, exec .aclr (before [1] 0) = .next t) ∧
    (∀ r, Instr.aclr ≠ .asmMalformed r) ∧ (∀ m, Instr.aclr ≠ .eclr m) :=
  ⟨⟨_, rfl⟩, ⟨_, rfl⟩, ⟨_, rfl⟩, (fun _ h => by cases h), (fun _ h => by cases h)⟩

theorem witness_OnlyEclrClearsEvents :
    (∀ m, Instr.asm (rpt 4 1 [2]) ≠ .eclr m) ∧ (∃ t, exec (.asm (rpt 4 1 [2])) (before [1] 0x0F) = .next t) ∧
    (before [1] 0x0F).evt.getLsbD 3 = true := ⟨(fun _ h => by cases h), ⟨_, rfl⟩, by decide⟩

theorem witness_OverflowStaysUntilReset :
    (∃ t, step { before [1] 0x0F with events := [.issue [0x04, 0xFF]] } = .next t) ∧
    ({ before [1] 0x0F with events := [.issue [0x04, 0xFF]] } : State).events.head? ≠ some .reset ∧
    (before [1] 0x0F).evt.getLsbD 3 = true := ⟨⟨_, rfl⟩, by decide, by decide⟩

theorem witness_ResetEventRestoresState :
    ({ before [1] 0x0F with events := [.reset], tlast := some 0 } : State).events = .reset :: [] := rfl

theorem witness_StepKeepsParameters : ∃ t, step { filled 1 with events := [.tick 1] } = .next t := ⟨_, rfl⟩

/-- The reset state with a report to take at an outstanding wait meets the invariant, and steps. -/
theorem witness_StepKeepsInvariant :
    ({ waitingFor [0x69] false [rpt 4 1 [2]] with events := [.take] } : State).Inv ∧
    ∃ t, step { waitingFor [0x69] false [rpt 4 1 [2]] with events := [.take] } = .next t :=
  ⟨⟨by decide +kernel, by decide, by decide, by decide, by decide, by decide, by decide⟩, ⟨_, rfl⟩⟩

theorem witness_SendAndWaitStartsWait :
    State.reset.session = .idle ∧
    exec (.enc []) State.reset = .next { State.reset with result := .reports [Report.build 5 5 0 []] } := ⟨rfl, rfl⟩

theorem witness_SecondCommandRefused :
    (waitingFor [0x69] false []).session = .awaitingResponse ∧
    ({ waitingFor [0x69] false [] with session := .resynchronized } : State).session = .resynchronized := by decide

/-- The clock at the deadline exactly, with a report still queued, the session shown in either way. -/
theorem witness_TimeoutLeavesCleanSession :
    ({ waitingFor [0x69] false [rpt 5 1 [0x69]] with now := 1000 } : State).session = .awaitingResponse ∧
    ({ waitingFor [0x69] false [] with session := .resynchronized, now := 1000 } : State).session = .resynchronized ∧
    ({ waitingFor [0x69] false [rpt 5 1 [0x69]] with now := 1000 } : State).wait = some ⟨[0x69], false, 1000⟩ ∧
    (⟨[0x69], false, 1000⟩ : Wait).deadline ≤ 1000 := by decide

/-- The last millisecond before the deadline; the payload is the tag alone; a wait for a payload, and a wait for an
acknowledgement that the report is not. -/
theorem witness_AcceptedPayloadEndsWait :
    (∀ b : Bool, ({ waitingFor [0x69] b [rpt 5 1 [0x69]] with now := 999 } : State).session = .awaitingResponse ∧
      ({ waitingFor [0x69] b [rpt 5 1 [0x69]] with now := 999 } : State).now < (⟨[0x69], b, 1000⟩ : Wait).deadline) ∧
    readByte (rpt 5 1 [0x69]).val 0 = State.reset.cfg.ridCmdIn ∧
    (∀ b : Bool, nextIs (exec (.asm (rpt 5 1 [0x69])) { waitingFor [0x69] b [] with now := 999 }) (fun t =>
      match t.result with
      | .step res => decide (res.outcome = .complete [0x69]) && !isAck State.reset.cfg res
      | _ => false) = true) := by decide +kernel

/-- The last millisecond before the deadline, for each kind of report: an input report; and, through ASM with a
non-empty ABUF, an incomplete start report that resynchronizes, an ignored, a malformed, an empty completed and an
unasked completed one, the wait being for an acknowledgement that none of them is. -/
theorem witness_UnsolicitedPayloadKeepsWaiting :
    ({ waitingFor [0x69] true [rpt 4 1 [1]] with now := 999 } : State).now < (⟨[0x69], true, 1000⟩ : Wait).deadline ∧
    State.reset.cfg.Ok ∧
    (readByte (rpt3 5 1).val 0 = State.reset.cfg.ridInput ∧
      nextIs (exec (.inp (rpt3 5 1)) (waitingFor [0x69] true [])) (fun _ => true) = true) ∧
    (∀ r ∈ [rpt 4 1 [1], Report.build 0x77 0 0 [], rpt 2 62 [], rpt 1 0 [], rpt 5 1 [0x01]],
      readByte r.val 0 ≠ State.reset.cfg.ridInput ∧
      nextIs (exec (.asm r) { waitingFor [0x69] true [] with abuf := if r.flags = 1 then [] else [7] }) (fun t =>
        match t.result with
        | .step res => !isAck State.reset.cfg res &&
            decide (res.outcome = .incomplete ∨ res.outcome = .complete [] ∨ res.outcome = .complete [0x01]) &&
            (res.resync == r.flagS)
        | _ => false) = true) := by decide +kernel

theorem witness_HcfAcknowledges :
    (waitingFor [0x66] true [rpt 2 0 []]).session = .awaitingResponse ∧
    (waitingFor [0x66] true [rpt 2 0 []]).now < (⟨[0x66], true, 1000⟩ : Wait).deadline ∧
    State.reset.cfg.ackRule = .hostCmdFinished ∧ (waitingFor [0x66] true [rpt 2 0 []]).Accepts (rpt 2 0 []) ∧
    (waitingFor [0x66] true [rpt 2 0 []]).Fits (rpt 2 0 []) ∧ (rpt 2 0 []).flagF = true := by decide

/-- One place left in the queue with a report at the channel; a read outstanding at its deadline and one millisecond
past it; an input report and a command report at the head of the queue. -/
theorem witness_IdleSessionTakesReportsInOrder :
    (State.reset.reading = none ∧ State.reset.channel = []) ∧
    ({ State.reset with queue := List.replicate 15 (rpt 0 0 []), channel := [rpt 5 0 []] } : State).queue.length <
      State.reset.cfg.queueCap ∧
    (({ State.reset with reading := some 10, now := 10 } : State).reading = some 10 ∧
      ({ State.reset with reading := some 10, now := 10 } : State).now ≤ 10) ∧
    (∀ d, ({ State.reset with reading := some 10, now := 11 } : State).reading = some d → d < 11) ∧
    (State.reset.cfg.Ok ∧ State.reset.session = .idle ∧ State.reset.wait = none ∧
      readByte (rpt3 1 0).val 0 = State.reset.cfg.ridInput ∧ readByte (rpt 5 0 []).val 0 ≠ State.reset.cfg.ridInput) :=
  ⟨⟨rfl, rfl⟩, by decide, ⟨rfl, by decide⟩, fun d h => by cases h; decide, by decide +kernel⟩

/-- The last millisecond of the window. -/
theorem witness_RateLimitedWriteDoesNothing :
    ({ State.reset with tlast := some 5, now := 1004 } : State).tlast = some 5 ∧ (5 ≤ 1004) ∧ 1004 - 5 < 1000 := by decide

/-- A write that reaches the channel exactly at the end of the window. -/
theorem witness_WriteReachesChannelOnlyAfterWindow :
    nextIs (handle (.writeConfig 5 (unpack vecImage) 10 (List.replicate 5 64)) { State.reset with tlast := some 5, now := 1005 })
      (fun t => decide (t.sent ≠ [])) = true := by decide +kernel

/-- The first millisecond after the window, for the two firmware versions at the boundary. -/
theorem witness_WriteOutsideWindowIsSent :
    State.reset.session = .idle ∧ State.reset.cfg.cmdMax = none ∧ State.reset.cfg.writeCmdRule = .tagSizeRecord ∧
    5 ≤ (5 : Word).toNat ∧ (4 : Word).toNat < 5 ∧
    (∀ last, ({ State.reset with tlast := some 5, now := 1005 } : State).tlast = some last →
      last + 1000 ≤ ({ State.reset with tlast := some 5, now := 1005 } : State).now) :=
  ⟨rfl, rfl, rfl, by decide, by decide, fun last h => by cases h; decide⟩

end Sys2Proof.Tests
end

/-! The CommandEncoder (40_command_encoder.md): what ENC answers, its list of reports, and the bytes of one report. -/

namespace Sys2Proof.Machine

/-! ### ENC -/

theorem exec_enc (cmd : List Byte) (s : State) : exec (.enc cmd) s = execEnc cmd s := rfl

theorem tooLong_eq_not_fits (c : Params) (cmd : List Byte) :
    tooLong c cmd = !c.cmdMax.all fun m => decide (cmd.length ≤ m) := by
  cases h : c.cmdMax with
  | none => simp [tooLong, h]
  | some m => simp only [tooLong, h, Option.any_some, Option.all_some, ← decide_not, not_le]

/-- ENC of a command that CMD_MAX allows changes the result only (R100, R106). -/
theorem exec_enc_of_fits {s : State} {cmd : List Byte}
    (h : s.cfg.cmdMax.all (fun m => decide (cmd.length ≤ m)) = true) :
    exec (.enc cmd) s = .next { s with result := .reports (encodeCommand s.cfg cmd) } := by
  have hfits : tooLong s.cfg cmd = false := by rw [tooLong_eq_not_fits, h]; rfl
  simp [exec_enc, execEnc, hfits, State.deliver]

/-! ### The list of reports -/

@[simp] theorem encodeCommand_length (c : Params) (cmd : List Byte) :
    (encodeCommand c cmd).length = chunkCount cmd.length := by
  simp [encodeCommand]

theorem encodeCommand_getElem?_eq_some {c : Params} {cmd : List Byte} {i : Nat} {r : Report} :
    (encodeCommand c cmd)[i]? = some r ↔ i < chunkCount cmd.length ∧ encodeReport c cmd i = r := by
  simp [encodeCommand, List.getElem?_eq_some_iff]

/-- The one report of the empty command (R104). -/
theorem encodeCommand_nil (c : Params) : encodeCommand c [] = [encodeReport c [] 0] := rfl

/-! ### One chunk and its flags -/

@[simp] theorem chunk_length (cmd : List Byte) (i : Nat) : (chunk cmd i).length = min 61 (cmd.length - 61 * i) := by
  simp [chunk]

theorem readByte_chunk {cmd : List Byte} {i j : Nat} (h : j < 61) :
    readByte (chunk cmd i) j = readByte cmd (61 * i + j) := by
  rw [chunk, readByte_take h, readByte_drop]

/-- The start bit and the end bit are different bits, so joining them is adding them. -/
theorem chunkFlags_eq_add (i k : Nat) :
    chunkFlags i k = (if i = 0 then 4 else 0) + (if i + 1 = k then 1 else 0) := by
  unfold chunkFlags
  split <;> split <;> rfl

/-! ### One report (R102) -/

theorem encodeReport_kindByte (c : Params) (cmd : List Byte) (i : Nat) :
    readByte (encodeReport c cmd i).val 0 = c.ridCmdOut := rfl

theorem encodeReport_flags (c : Params) (cmd : List Byte) (i : Nat) :
    readByte (encodeReport c cmd i).val 1 = chunkFlags i (chunkCount cmd.length) := rfl

/-- The length byte holds the chunk's length without wrapping, a chunk being at most 61 bytes. -/
theorem encodeReport_len (c : Params) (cmd : List Byte) (i : Nat) :
    (encodeReport c cmd i).len = min 61 (cmd.length - 61 * i) := by
  rw [encodeReport, Report.build_len, BitVec.toNat_ofNat, chunk_length]
  omega

theorem encodeReport_byte (c : Params) (cmd : List Byte) (i j : Nat) :
    readByte (encodeReport c cmd i).val (3 + j) = readByte (chunk cmd i) j :=
  Report.build_data _ _ _ _ _ (by rw [chunk_length]; omega)

theorem encodeReport_data {c : Params} {cmd : List Byte} {i j : Nat} (h : j < (encodeReport c cmd i).len) :
    readByte (encodeReport c cmd i).val (3 + j) = readByte cmd (61 * i + j) := by
  rw [encodeReport_len] at h
  rw [encodeReport_byte, readByte_chunk (by omega)]

theorem encodeReport_padding {c : Params} {cmd : List Byte} {i j : Nat} (h : 3 + (encodeReport c cmd i).len ≤ j) :
    readByte (encodeReport c cmd i).val j = 0 := by
  obtain ⟨d, rfl⟩ := Nat.exists_eq_add_of_le (show 3 ≤ j by omega)
  rw [encodeReport_len] at h
  rw [encodeReport_byte, readByte_of_ge (by rw [chunk_length]; omega)]

/-- Settles O3: the list of the empty command is report 0 alone, which is both the first and the last. -/
theorem encEmptyCommandOneReport : Obligations.EncEmptyCommandOneReport := by
  intro s
  have hfits : s.cfg.cmdMax.all (fun m => decide (([] : List Byte).length ≤ m)) = true := by
    cases s.cfg.cmdMax <;> simp
  refine ⟨encodeReport s.cfg [] 0, ?_, rfl⟩
  rw [exec_enc_of_fits hfits, encodeCommand_nil]

/-- Settles O1: report `i` of the list is `encodeReport` of `i`, read byte by byte. -/
theorem encReportImages : Obligations.EncReportImages := by
  intro s cmd hfits
  refine ⟨encodeCommand s.cfg cmd, exec_enc_of_fits hfits, fun i r hr => ?_⟩
  obtain ⟨-, rfl⟩ := encodeCommand_getElem?_eq_some.mp hr
  refine ⟨encodeReport_kindByte .., ?flags, encodeReport_len .., fun j => encodeReport_data,
    fun j hpad _ => encodeReport_padding hpad⟩
  case flags => rw [encodeReport_flags, chunkFlags_eq_add, encodeCommand_length]

end Sys2Proof.Machine

/-! The PacketAssembler (41_packet_assembler.md): what ASM answers for a malformed report. -/

namespace Sys2Proof.Machine

/-! ### ASM -/

theorem exec_asm (r : Report) (s : State) : exec (.asm r) s = execAsm r s := rfl

/-- ASM of a command-channel report whose length byte is over 61 is step 1 alone: no flag is consulted (R122, R128). -/
theorem exec_asm_of_overlong {s : State} {r : Report} (hkind : r.kindByte = s.cfg.ridCmdIn) (hlen : 61 < r.len) :
    exec (.asm r) s = .next (s.dropMalformed (readByte r.val 2)) := by
  rw [exec_asm, execAsm, if_neg (not_not_intro hkind), if_pos hlen]

/-- Settles O6: the report stops at step 1 of ASM, whose whole effect is `dropMalformed_eq`. -/
theorem asmDropsMalformed : Obligations.AsmDropsMalformed := by
  intro s r hkind hlen
  rw [exec_asm_of_overlong hkind hlen, dropMalformed_eq]
  rfl

end Sys2Proof.Machine

/-! The ConfigCodec (42_config_codec.md): the flat value list of a record, and what CFGD reads into it. -/

namespace Sys2Proof.Machine

/-! ### CFGD -/

theorem exec_cfgd (b : List Byte) (s : State) : exec (.cfgd b) s = .next (decodeConfig b s) := rfl

/-- CFGD of 250 bytes changes the result only (R151). -/
theorem exec_cfgd_image (b : Bytes 250) (s : State) :
    exec (.cfgd b.val) s = .next { s with result := .config .ok (unpack b) } := by
  rw [exec_cfgd, decodeConfig, dif_pos b.property]
  rfl

/-! ### The value list of a record -/

@[simp] theorem zext16_toNat (b : Byte) : (zext16 b).toNat = b.toNat := by
  have := b.isLt
  simp only [zext16, BitVec.toNat_setWidth]
  omega

@[simp] theorem toNat_comp_zext16 : BitVec.toNat ∘ zext16 = BitVec.toNat := funext zext16_toNat

@[simp] theorem panelValues_length (q : PanelSensorSettings) : (panelValues q).length = 13 := by
  simp [panelValues, Vec.length]

/-- The values of the sub-records follow the first 49, and the values of the tail follow them. -/
theorem recordValues_drop_prefix (r : ConfigRecord) : (recordValues r).drop 49 =
    r.panelSettings.val.flatMap panelValues ++
      (zext16 r.preDetailsDelayMilliseconds :: r.padding.val.map zext16) := by
  rw [recordValues, List.append_assoc, List.append_assoc]
  exact List.drop_left' (by simp [Vec.length])

/-- In a concatenation of blocks of one length `k`, value `q` of block `p` stands at `k * p + q`. -/
theorem getElem?_flatMap_of_length_eq {α β : Type} {f : α → List β} {k : Nat} (hf : ∀ a, (f a).length = k)
    {l : List α} {p q : Nat} {a : α} (hp : l[p]? = some a) (hq : q < k) :
    (l.flatMap f)[k * p + q]? = (f a)[q]? := by
  induction l generalizing p with
  | nil => simp at hp
  | cons x xs ih =>
    rw [List.flatMap_cons]
    cases p with
    | zero =>
      obtain rfl : x = a := by simpa using hp
      rw [Nat.mul_zero, Nat.zero_add, List.getElem?_append_left (by rw [hf]; exact hq)]
    | succ p =>
      have hskip : k * (p + 1) + q = (f x).length + (k * p + q) := by rw [hf, Nat.mul_succ]; omega
      rw [hskip, List.getElem?_append_right (Nat.le_add_right ..), Nat.add_sub_cancel_left]
      exact ih (by simpa using hp)

theorem flatMap_panelValues_length (ps : List PanelSensorSettings) :
    (ps.flatMap panelValues).length = 13 * ps.length := by
  simp [List.length_flatMap, Nat.mul_comm]

@[simp] theorem recordValues_length (r : ConfigRecord) : (recordValues r).length = 216 := by
  simp [recordValues, Vec.length]

/-- Value `q` of sub-record `p` has field index `49 + 13*p + q` (R79, R87 (6)). -/
theorem recordValues_panel {r : ConfigRecord} {p q : Nat} {x : PanelSensorSettings}
    (hx : r.panelSettings.val[p]? = some x) (hq : q < 13) :
    (recordValues r)[49 + 13 * p + q]? = (panelValues x)[q]? := by
  have hpanel : (r.panelSettings.val.flatMap panelValues)[13 * p + q]? = (panelValues x)[q]? :=
    getElem?_flatMap_of_length_eq panelValues_length hx hq
  have hin : 13 * p + q < (r.panelSettings.val.flatMap panelValues).length := by
    have hp : p < r.panelSettings.val.length := (List.getElem?_eq_some_iff.mp hx).1
    rw [flatMap_panelValues_length]
    omega
  calc (recordValues r)[49 + 13 * p + q]?
      = ((recordValues r).drop 49)[13 * p + q]? := by rw [List.getElem?_drop, Nat.add_assoc]
    _ = (panelValues x)[q]? := by
        rw [recordValues_drop_prefix, List.getElem?_append_left hin, hpanel]

/-! ### The rows of the field table -/

/-- The values one row of the field table reads from a byte space, each array element as one value (R153). -/
def rowValues (l : List Byte) (f : FieldRow) : List Nat :=
  (List.range f.count).map fun e =>
    if f.width = 1 then (readByte l (f.offset + f.width * e)).toNat
    else (readWord l (f.offset + f.width * e)).toNat

/-- `values(b)` is read row by row (R153). -/
theorem flatValues_eq_flatMap_rowValues (b : Bytes 250) :
    flatValues b = fieldTable.flatMap (rowValues b.val) := by
  simp only [flatValues, fieldElements, List.map_flatMap, List.map_map]
  rfl

/-- A row of bytes reads the field of the same offset and extent. -/
theorem rowValues_bytes (l : List Byte) (o n i : Nat) :
    rowValues l ⟨o, 1, n, i⟩ = (readBytes l o n).val.map BitVec.toNat := by
  simp [rowValues, readBytes, Vec.tab]

theorem readBytes_one (l : List Byte) (o : Nat) : (readBytes l o 1).val = [readByte l o] := rfl

/-- A row of one word reads the word at its offset. -/
theorem rowValues_word (l : List Byte) (o i : Nat) : rowValues l ⟨o, 2, 1, i⟩ = [(readWord l o).toNat] := rfl

/-- The seven rows of sub-record `p` read the 13 values `unpackPanel` puts in it (R79, R154). -/
theorem panelValues_unpackPanel (l : List Byte) (p : Nat) :
    (panelValues (unpackPanel l p)).map BitVec.toNat = (panelRows p).flatMap (rowValues l) := by
  simp [panelValues, unpackPanel, panelRows, rowValues_bytes, readBytes_one, rowValues_word]

/-- The nine groups of seven rows read the sub-records of the decoded record. -/
theorem panels_unpack (b : Bytes 250) :
    ((unpack b).panelSettings.val.flatMap panelValues).map BitVec.toNat =
      ((List.range 9).flatMap panelRows).flatMap (rowValues b.val) := by
  have hpanels : (unpack b).panelSettings.val = (List.range 9).map (unpackPanel b.val) := rfl
  simp only [hpanels, List.flatMap_map, List.map_flatMap, List.flatMap_assoc, panelValues_unpackPanel]

/-- Decoding puts in each field what the field's row reads (R152, R154, R155). -/
theorem recordValues_unpack (b : Bytes 250) :
    (recordValues (unpack b)).map BitVec.toNat = flatValues b := by
  rw [flatValues_eq_flatMap_rowValues, fieldTable, List.flatMap_append, List.flatMap_append, ← panels_unpack,
    recordValues]
  simp [unpack, rowValues_bytes, readBytes_one, rowValues_word]

theorem flatValues_length (b : Bytes 250) : (flatValues b).length = 216 := by
  rw [← recordValues_unpack, List.length_map, recordValues_length]

/-- Settles O22: the record is `unpack b`, read row by row, with the sub-records in blocks of 13 from index 49. -/
theorem cfgdReadsFieldTable : Obligations.CfgdReadsFieldTable := fun s b =>
  ⟨unpack b, exec_cfgd_image b s, recordValues_unpack b, flatValues_length b, fun _ _ _ => recordValues_panel⟩

end Sys2Proof.Machine

/-! The error kinds (60_exceptions.md): a configuration write inside the window after TLAST (R247). -/

namespace Sys2Proof.Machine

/-! ### The remaining time of the window -/

theorem rateRemaining_of_inside {s : State} {last : Nat} (hlast : s.tlast = some last) (hin : s.now - last < 1000) :
    rateRemaining s = some (1000 - (s.now - last)) := by
  rw [rateRemaining, hlast]
  exact if_pos hin

/-! ### The rejected write -/

/-- A remaining time rejects the write before any I/O: the return value is all that moves, whatever would be sent. -/
theorem handle_writeConfig_of_rateRemaining {s : State} {remaining : Nat} (h : rateRemaining s = some remaining)
    (firmware : Word) (rec : ConfigRecord) (timeout : Nat) (counts : List Nat) :
    handle (.writeConfig firmware rec timeout counts) s =
      .next { s with ret := .error (.rateLimited remaining) } := by
  rw [handle, writeConfig, h]

/-- Settles O56: inside the window the remaining time is 1000 less the time since TLAST, and the write is rejected with
it. -/
theorem rateLimitedWriteDoesNothing : Obligations.RateLimitedWriteDoesNothing := by
  intro s firmware rec timeout counts last hlast hpast hin
  have hreject := handle_writeConfig_of_rateRemaining (rateRemaining_of_inside hlast hin) firmware rec timeout counts
  exact ⟨1000 - (s.now - last), by omega, by omega, by omega, hreject⟩

end Sys2Proof.Machine

/-! The PacketAssembler (41_packet_assembler.md), continued: what ASM answers for every report, the report rows of the
opcode table, and the two clearing operations and INP. -/

namespace Sys2Proof.Machine

/-! ### The three ways ASM goes (R121, R122, R128) -/

theorem exec_asm_of_otherKind {s : State} {r : Report} (hkind : r.kindByte ≠ s.cfg.ridCmdIn) :
    exec (.asm r) s = .next s.ignore := by
  rw [exec_asm, execAsm, if_pos hkind]

theorem exec_asm_of_accepts {s : State} {r : Report} (h : s.Accepts r) :
    exec (.asm r) s = .next (s.assemble r.flagS r.flagE r.flagF r.flagD r.payload) := by
  have hlen : ¬ 61 < r.len := Nat.not_lt.mpr h.2
  have hkind : r.kindByte = s.cfg.ridCmdIn := h.1
  rw [exec_asm, execAsm, if_neg (not_not_intro hkind), if_neg hlen]

/-- The decoder's test of a report is the condition under which ASM takes it. -/
theorem accepted_iff {c : Params} {r : Report} : r.accepted c = true ↔ r.kindByte = c.ridCmdIn ∧ r.len ≤ 61 := by
  rw [Report.accepted, Bool.and_eq_true, decide_eq_true_iff, decide_eq_true_iff]

/-- A report that is not accepted is of another kind or overlong. -/
theorem otherKind_or_overlong {s : State} {r : Report} (h : ¬ s.Accepts r) :
    r.kindByte ≠ s.cfg.ridCmdIn ∨ (r.kindByte = s.cfg.ridCmdIn ∧ 61 < r.len) := by
  by_cases hkind : r.kindByte = s.cfg.ridCmdIn
  · exact .inr ⟨hkind, by by_contra hlen; exact h ⟨hkind, by omega⟩⟩
  · exact .inl hkind

/-! ### A finite bound -/

theorem bufCap_all_mono {c : Option Nat} {m n : Nat} (hmn : m ≤ n)
    (hn : c.all (fun cap => decide (n ≤ cap)) = true) : c.all (fun cap => decide (m ≤ cap)) = true := by
  cases c with
  | none => rfl
  | some cap =>
    simp only [Option.all_some, decide_eq_true_eq] at *
    omega

/-! ### An accepted report -/

/-- ABUF after the append of a report (R123, R124): a start flag over a non-empty ABUF empties it first. -/
def State.joined (s : State) (r : Report) : List Byte := (if s.resyncs r.flagS then [] else s.abuf) ++ r.slice

/-- The step result of an accepted report whose append fits (R125 to R127). -/
def State.stepResult (s : State) (r : Report) : StepResult where
  outcome := if r.flagE then .complete (s.joined r) else .incomplete
  status := .ok
  ignored := false
  malformed := false
  resync := s.resyncs r.flagS
  hostCmdFinished := r.flagF
  deviceInfo := r.flagD

theorem joined_length (s : State) (r : Report) :
    (s.joined r).length = (if r.flagS then 0 else s.abuf.length) + r.len := by
  rw [State.joined, List.length_append, resyncs_base_length, Report.slice_length]

theorem joined_of_start {s : State} {r : Report} (h : r.flagS = true) : s.joined r = r.slice := by
  rw [State.joined, resyncs_eq, h]
  cases s.abuf <;> simp

theorem joined_of_no_resync {s : State} {r : Report} (h : s.resyncs r.flagS = false) :
    s.joined r = s.abuf ++ r.slice := by
  simp [State.joined, h]

@[simp] theorem resyncs_false (s : State) : s.resyncs false = false := rfl

@[simp] theorem resyncs_true (s : State) : s.resyncs true = decide (s.abuf.length > 0) := by
  rw [resyncs_eq, Bool.true_and]

theorem resyncs_of_no_start {s : State} {r : Report} (h : r.flagS = false) : s.resyncs r.flagS = false := by
  rw [resyncs_eq, h, Bool.false_and]

/-- The framing steps on a report, in the terms of the report. -/
theorem assemble_report {s : State} {r : Report} (ha : s.Accepts r) (hf : s.Fits r) :
    s.assemble r.flagS r.flagE r.flagF r.flagD r.payload = { s with
      abuf := if r.flagE then [] else s.joined r
      evt := (s.evt ||| if s.resyncs r.flagS then 2 else 0) ||| if r.flagF then 4 else 0
      result := .step (s.stepResult r) } := by
  rw [assemble_of_fits _ _ _ _ _ _ ((fits_iff s r ha.2).mp hf), Report.payload_eq_slice r ha.2]
  rfl

theorem exec_asm_of_fits {s : State} {r : Report} (ha : s.Accepts r) (hf : s.Fits r) :
    exec (.asm r) s = .next { s with
      abuf := if r.flagE then [] else s.joined r
      evt := (s.evt ||| if s.resyncs r.flagS then 2 else 0) ||| if r.flagF then 4 else 0
      result := .step (s.stepResult r) } := by
  rw [exec_asm_of_accepts ha, assemble_report ha hf]

/-- An accepted report whose append does not fit (R130). -/
theorem exec_asm_of_overflow {s : State} {r : Report} (ha : s.Accepts r) (hf : ¬ s.Fits r) :
    exec (.asm r) s = .next { s with
      abuf := if s.resyncs r.flagS then [] else s.abuf
      evt := (s.evt ||| if s.resyncs r.flagS then 2 else 0) ||| 8
      result := .step (StepResult.dropped .bufferOverflow) } := by
  rw [fits_iff s r ha.2, Bool.not_eq_true] at hf
  rw [exec_asm_of_accepts ha, assemble_of_overflow _ _ _ _ _ _ hf]

/-- A start flag makes room for any report within a lawful BUF_CAP, so an overflowing report has none (R130). -/
theorem no_start_of_overflow {s : State} {r : Report} (hcfg : s.cfg.Ok) (ha : s.Accepts r) (hf : ¬ s.Fits r) :
    r.flagS = false := by
  obtain ⟨-, hcap, -⟩ := hcfg
  by_contra hstart
  rw [Bool.not_eq_false] at hstart
  refine hf (bufCap_all_mono ?_ hcap)
  have := ha.2
  simp only [hstart, if_true]
  omega

/-- Settles O5: a report of another kind stops at step 0 of ASM. -/
theorem asmIgnoresOtherKinds : Obligations.AsmIgnoresOtherKinds := by
  intro s r hkind
  rw [exec_asm_of_otherKind hkind, ignore_eq]
  rfl

/-- Settles O7: the whole effect is `exec_asm_of_fits`, its resynchronization bit read by R123. -/
theorem asmWellFormedStep : Obligations.AsmWellFormedStep := by
  intro s r ha hf
  exact ⟨s.resyncs r.flagS, s.joined r, resyncs_eq s r.flagS, rfl, exec_asm_of_fits ha hf⟩

/-- Settles O8: an overflowing report has no start flag, so nothing was discarded before it was dropped. -/
theorem asmOverflowDropsReport : Obligations.AsmOverflowDropsReport := by
  intro s r hcfg ha hf
  have hstart := no_start_of_overflow hcfg ha hf
  refine ⟨fun h => absurd (hstart.symm.trans h) (by decide), ?_⟩
  rw [exec_asm_of_overflow ha hf, resyncs_of_no_start hstart]
  simp [StepResult.dropped]

/-- Settles O9: ABUF afterwards is empty after an end flag and else as long as `joined_length` says. -/
theorem asmFramingTransition : Obligations.AsmFramingTransition := by
  intro s r ha hf
  refine ⟨_, s.stepResult r, exec_asm_of_fits ha hf, rfl, ?framing, ?incomplete, ?complete, ?resync⟩
  case framing =>
    cases hE : r.flagE
    case true => simp
    case false =>
      rw [if_neg Bool.false_ne_true, joined_length]
      cases hS : r.flagS
      · simp [or_comm]
      · simp
  case incomplete => cases hE : r.flagE <;> simp [State.stepResult, hE]
  case complete =>
    intro hE
    cases hS : r.flagS
    · simp [State.stepResult, hE, joined_of_no_resync (resyncs_of_no_start hS)]
    · simp [State.stepResult, hE, joined_of_start hS]
  case resync => simp [State.stepResult, resyncs_eq]

/-! ### The rows of the table -/

theorem exec_asmMid (r : Report) (s : State) :
    exec (.asmMid r) s = .next (s.assemble false false r.flagF r.flagD r.payload) := rfl
theorem exec_asmEnd (r : Report) (s : State) :
    exec (.asmEnd r) s = .next (s.assemble false true r.flagF r.flagD r.payload) := rfl
theorem exec_asmStart (r : Report) (s : State) :
    exec (.asmStart r) s = .next (s.assemble true false r.flagF r.flagD r.payload) := rfl
theorem exec_asmSingle (r : Report) (s : State) :
    exec (.asmSingle r) s = .next (s.assemble true true r.flagF r.flagD r.payload) := rfl
theorem exec_asmMalformed (r : Report) (s : State) :
    exec (.asmMalformed r) s = .next (s.dropMalformed (readByte r.val 2)) := rfl
theorem exec_asmIgnored (r : Report) (s : State) : exec (.asmIgnored r) s = .next s.ignore := rfl
theorem exec_asmHcf (r : Report) (s : State) :
    exec (.asmHcf r) s = .next (s.assemble r.flagS r.flagE true r.flagD r.payload) := rfl
theorem exec_asmDevinfo (r : Report) (s : State) :
    exec (.asmDevinfo r) s = .next (s.assemble r.flagS r.flagE r.flagF true r.payload) := rfl
theorem exec_inpReport (r : Report) (s : State) :
    exec (.inpReport r) s = .next (s.deliver (.input false (pressedPanels r.mask))) := rfl

/-- The framing row fixes the two bits it is chosen by. -/
theorem exec_framingRow (r : Report) (s : State) :
    exec (framingRow r) s = .next (s.assemble r.flagS r.flagE r.flagF r.flagD r.payload) := by
  unfold framingRow
  cases r.flagS <;> cases r.flagE <;> rfl

/-- The row of an accepted report, whichever of the modifier and framing rows it is. -/
theorem exec_asmRow_of_accepts {s : State} {r : Report} (h : s.Accepts r) :
    exec (asmRow s.cfg r) s = .next (s.assemble r.flagS r.flagE r.flagF r.flagD r.payload) := by
  have hlen : ¬ 61 < r.len := Nat.not_lt.mpr h.2
  have hkind : r.kindByte = s.cfg.ridCmdIn := h.1
  rw [asmRow, if_neg (not_not_intro hkind), if_neg hlen]
  split
  case isTrue hD => rw [exec_asmDevinfo, hD]
  case isFalse =>
    split
    case isTrue hF => rw [exec_asmHcf, hF]
    case isFalse => exact exec_framingRow r s

/-- The row a report matches does what ASM does on it (R91). -/
theorem exec_asmRow (r : Report) (s : State) : exec (asmRow s.cfg r) s = exec (.asm r) s := by
  by_cases ha : s.Accepts r
  · rw [exec_asmRow_of_accepts ha, exec_asm_of_accepts ha]
  · rcases otherKind_or_overlong ha with hkind | ⟨hkind, hlen⟩
    · rw [exec_asm_of_otherKind hkind, asmRow, if_pos hkind, exec_asmIgnored]
    · rw [exec_asm_of_overlong hkind hlen, asmRow, if_neg (not_not_intro hkind), if_pos hlen, exec_asmMalformed]

theorem exec_asm_eq_next (r : Report) (s : State) : ∃ t, exec (.asm r) s = .next t := by
  by_cases ha : s.Accepts r
  · exact ⟨_, exec_asm_of_accepts ha⟩
  · rcases otherKind_or_overlong ha with hkind | ⟨hkind, hlen⟩
    · exact ⟨_, exec_asm_of_otherKind hkind⟩
    · exact ⟨_, exec_asm_of_overlong hkind hlen⟩

/-- Settles O10, by `exec_asmRow`. -/
theorem asmRowsAgreeWithAsm : Obligations.AsmRowsAgreeWithAsm := by
  intro s r
  obtain ⟨t, ht⟩ := exec_asm_eq_next r s
  exact ⟨t, (exec_asmRow r s).trans ht, ht⟩

/-- Settles O11: each row is the framing steps of its report, which has no start flag and so discards nothing. -/
theorem asmMidEndRowsAppend : Obligations.AsmMidEndRowsAppend := by
  intro s r ha hf hS
  have hframe := assemble_report ha hf
  have hjoin := joined_of_no_resync (resyncs_of_no_start (s := s) hS)
  refine ⟨fun hE => ?mid, fun hE => ?finish⟩
  case mid =>
    rw [hS, hE] at hframe
    simp [exec_asmMid, hframe, hjoin, State.stepResult, hS, hE]
  case finish =>
    rw [hS, hE] at hframe
    simp [exec_asmEnd, hframe, hjoin, State.stepResult, hS, hE]

/-- Settles O12: each row is the framing steps of its report, whose start flag leaves the slice alone in the buffer. -/
theorem asmStartSingleRowsRestart : Obligations.AsmStartSingleRowsRestart := by
  intro s r ha hf hS
  have hframe := assemble_report ha hf
  have hjoin : s.joined r = r.slice := joined_of_start hS
  refine ⟨fun hE => ?start, fun hE => ?single⟩
  case start =>
    rw [hS, hE] at hframe
    simp [exec_asmStart, hframe, hjoin, State.stepResult, hS, hE]
  case single =>
    rw [hS, hE] at hframe
    simp [exec_asmSingle, hframe, hjoin, State.stepResult, hS, hE]

/-- Settles O13: the two rows are steps 1 and 0 of ASM, and their conditions are those under which ASM stops there. -/
theorem asmDroppingRows : Obligations.AsmDroppingRows := by
  intro s r
  refine ⟨fun hwf => ?malformed, fun hwf => ?ignored⟩
  case malformed =>
    obtain ⟨hkind, hlen⟩ : r.kindByte = s.cfg.ridCmdIn ∧ 62 ≤ r.len := by
      simpa [Instr.WellFormed] using hwf
    exact ⟨_, exec_asmMalformed r s, exec_asm_of_overlong hkind hlen, dropMalformed_eq s _⟩
  case ignored =>
    obtain ⟨hkind, -⟩ : r.kindByte ≠ s.cfg.ridCmdIn ∧ r.kindByte ≠ s.cfg.ridInput := by
      simpa [Instr.WellFormed] using hwf
    exact ⟨_, exec_asmIgnored r s, exec_asm_of_otherKind hkind, ignore_eq s⟩

/-! ### Reports with flag bits cleared -/

theorem clearFlags_byte (r : Report) (mask : Byte) {i : Nat} (hi : i ≠ 1) :
    readByte (r.clearFlags mask).val i = readByte r.val i := by
  simp [readByte, Report.clearFlags, List.getElem?_set_ne hi.symm]

theorem clearFlags_flags (r : Report) (mask : Byte) : (r.clearFlags mask).flags = r.flags &&& ~~~mask := by
  have hlen : 1 < r.val.length := by rw [r.property]; omega
  simp [Report.flags, readByte, Report.clearFlags, hlen]

theorem clearFlags_len (r : Report) (mask : Byte) : (r.clearFlags mask).len = r.len := by
  rw [Report.len, clearFlags_byte r mask (by omega), Report.len]

theorem clearFlags_slice (r : Report) (mask : Byte) : (r.clearFlags mask).slice = r.slice := by
  simp only [Report.slice, clearFlags_len]
  exact List.map_congr_left fun j _ => clearFlags_byte r mask (by omega)

theorem clearFlags_payload (r : Report) (mask : Byte) (h : r.len ≤ 61) :
    (r.clearFlags mask).payload = r.payload := by
  rw [Report.payload_eq_slice r h, Report.payload_eq_slice _ (by rwa [clearFlags_len]), clearFlags_slice]

theorem clearFlags_accepts {s : State} {r : Report} (mask : Byte) (h : s.Accepts r) :
    s.Accepts (r.clearFlags mask) :=
  ⟨(clearFlags_byte r mask (by omega)).trans h.1, (clearFlags_len r mask).trans_le h.2⟩

/-- Clearing bit 1 leaves S, E and D and takes F away. -/
theorem clearFlags_hcf (r : Report) :
    (r.clearFlags 2).flagS = r.flagS ∧ (r.clearFlags 2).flagE = r.flagE ∧ (r.clearFlags 2).flagF = false ∧
      (r.clearFlags 2).flagD = r.flagD := by
  simp [Report.flagS, Report.flagE, Report.flagF, Report.flagD, clearFlags_flags]

/-- Clearing bit 7 leaves S, E and F and takes D away. -/
theorem clearFlags_devinfo (r : Report) :
    (r.clearFlags 0x80).flagS = r.flagS ∧ (r.clearFlags 0x80).flagE = r.flagE ∧
      (r.clearFlags 0x80).flagF = r.flagF ∧ (r.clearFlags 0x80).flagD = false := by
  simp [Report.flagS, Report.flagE, Report.flagF, Report.flagD, clearFlags_flags]

/-- Settles O14: with the bit cleared the framing steps get the same start, end and slice, and the bit itself only
shows in the result and, for F, in EVT. -/
theorem asmModifierRowsKeepFraming : Obligations.AsmModifierRowsKeepFraming := by
  intro s r ha hf
  have hfit := (fits_iff s r ha.2).mp hf
  refine ⟨fun _ => ?hcf, fun _ => ?devinfo⟩
  case hcf =>
    obtain ⟨hS, hE, hF, hD⟩ := clearFlags_hcf r
    refine ⟨s.assemble r.flagS r.flagE false r.flagD r.payload, { s.stepResult r with hostCmdFinished := false },
      ?_, ?_⟩
    · rw [exec_asm_of_accepts (clearFlags_accepts 2 ha), hS, hE, hF, hD, clearFlags_payload r 2 ha.2,
        assemble_of_fits _ _ _ _ _ _ hfit, Report.payload_eq_slice r ha.2]
      rfl
    · rw [exec_asmHcf, assemble_of_fits _ _ _ _ _ _ hfit, assemble_of_fits _ _ _ _ _ _ hfit,
        Report.payload_eq_slice r ha.2]
      simp [State.stepResult, State.joined]
  case devinfo =>
    obtain ⟨hS, hE, hF, hD⟩ := clearFlags_devinfo r
    refine ⟨s.assemble r.flagS r.flagE r.flagF false r.payload, { s.stepResult r with deviceInfo := false },
      ?_, ?_⟩
    · rw [exec_asm_of_accepts (clearFlags_accepts 0x80 ha), hS, hE, hF, hD, clearFlags_payload r 0x80 ha.2,
        assemble_of_fits _ _ _ _ _ _ hfit, Report.payload_eq_slice r ha.2]
      rfl
    · rw [exec_asmDevinfo, assemble_of_fits _ _ _ _ _ _ hfit, assemble_of_fits _ _ _ _ _ _ hfit,
        Report.payload_eq_slice r ha.2]
      rfl

/-! ### What of ABUF a result shows -/

theorem fits_of_unbounded {s : State} (h : s.cfg.bufCap = none) (r : Report) : s.Fits r := by
  rw [State.Fits, h]
  rfl

/-- Settles O15: without an end flag, a result reads ABUF through the resynchronization bit alone. -/
theorem abufHiddenUntilFinalized : Obligations.AbufHiddenUntilFinalized := by
  intro s t b r hcap hempty hE hasm
  have hE' : r.flagE = false := hE
  have hresync : State.resyncs { s with abuf := b } r.flagS = s.resyncs r.flagS := by
    simp [resyncs_eq, List.length_pos_iff, hempty]
  by_cases ha : s.Accepts r
  · have ha' : State.Accepts { s with abuf := b } r := ha
    rw [exec_asm_of_fits ha (fits_of_unbounded hcap r)] at hasm
    cases hasm
    refine ⟨_, exec_asm_of_fits ha' (fits_of_unbounded (by exact hcap) r), ?_, ?_⟩
    · simp [State.stepResult, hE', hresync]
    · simp [hresync]
  · rcases otherKind_or_overlong ha with hkind | ⟨hkind, hlen⟩
    · rw [exec_asm_of_otherKind hkind] at hasm
      cases hasm
      exact ⟨_, exec_asm_of_otherKind hkind, rfl, rfl⟩
    · rw [exec_asm_of_overlong hkind hlen] at hasm
      cases hasm
      exact ⟨_, exec_asm_of_overlong hkind hlen, rfl, rfl⟩

/-! ### ACLR, ECLR, INP -/

theorem exec_aclr (s : State) : exec .aclr s = .next ((s.setAbuf []).deliver .none) := rfl
theorem exec_eclr (m : Byte) (s : State) : exec (.eclr m) s = .next ((s.clearEvt m).deliver .none) := rfl

theorem exec_inp (r : Report) (s : State) : exec (.inp r) s =
    .next (s.deliver (if r.kindByte = s.cfg.ridInput then .input false (pressedPanels r.mask) else .input true 0)) := by
  by_cases hkind : r.kindByte = s.cfg.ridInput
  · rw [if_pos hkind]; exact if_neg (not_not_intro hkind)
  · rw [if_neg hkind]; exact if_pos hkind

theorem le16_getLsbD (lo hi : Byte) (i : Nat) :
    (le16 lo hi).getLsbD i = if i < 8 then lo.getLsbD i else hi.getLsbD (i - 8) :=
  BitVec.getLsbD_append

/-- Panel `i` is bit `i` of the mask (R132). -/
theorem pressedPanels_getLsbD (mask : Word) {i : Nat} (h : i < 9) :
    (pressedPanels mask).getLsbD i = mask.getLsbD i := by
  rw [pressedPanels, BitVec.getLsbD_setWidth, decide_eq_true h, Bool.true_and]

/-- Settles O19: ACLR's two writes, and the third select of the port. -/
theorem aclrEmptiesAbufOnly : Obligations.AclrEmptiesAbufOnly := fun s => ⟨rfl, exec_aclr s⟩

/-- Settles O20: the new EVT is `evtClear`, whose bits `evtClear_getLsbD` gives. -/
theorem eclrClearsMaskedBits : Obligations.EclrClearsMaskedBits := fun s m =>
  ⟨evtClear s.evt m, exec_eclr m s, fun i hi => evtClear_getLsbD s.evt m i hi⟩

/-- Settles O21: the nine bits are the low bits of the little-endian mask in bytes 1 and 2. -/
theorem inpReportsPressedPanels : Obligations.InpReportsPressedPanels := by
  intro s r
  refine ⟨pressedPanels r.mask, fun i hi => ?low, ?high, exec_inp r s, exec_inpReport r s⟩
  case low => rw [pressedPanels_getLsbD _ (by omega), Report.mask, readWord, le16_getLsbD, if_pos hi]
  case high => rw [pressedPanels_getLsbD _ (by omega), Report.mask, readWord, le16_getLsbD, if_neg (by omega)]

end Sys2Proof.Machine

/-! ASM over lists of reports (30_encoding.md R89, 41_packet_assembler.md R135): the reports of one command, and
reports that are no part of it. -/

namespace Sys2Proof.Machine

/-! ### FEED -/

theorem feed_cons_of_next {r : Report} {rest : List Report} {s s1 t : State} {outs : List PortResult}
    (hstep : exec (.asm r) s = .next s1) (hrest : feed rest s1 = some (outs, t)) :
    feed (r :: rest) s = some (s1.result :: outs, t) := by
  simp [feed, hstep, hrest]

theorem completions_append (a b : List PortResult) : completions (a ++ b) = completions a ++ completions b :=
  List.filterMap_append

theorem completions_cons (v : PortResult) (vs : List PortResult) :
    completions (v :: vs) = completions [v] ++ completions vs :=
  completions_append [v] vs

theorem completions_of_incomplete {res : StepResult} (h : res.outcome = .incomplete) :
    completions [.step res] = [] := by
  simp [completions, h]

theorem completions_of_complete {res : StepResult} {p : List Byte} (h : res.outcome = .complete p) :
    completions [.step res] = [p] := by
  simp [completions, h]

/-! ### The reports of one command (R135, first part) -/

/-- `init ++ [last]` is the rest of a command from `s` on: every report is accepted, none discards anything, only the
last has the end flag, and the slices fit behind ABUF. -/
structure CommandReports (s : State) (init : List Report) (last : Report) : Prop where
  accepts : ∀ r ∈ init ++ [last], s.Accepts r
  start : ∀ r ∈ (init ++ [last]).head?, s.resyncs r.flagS = false
  noStart : ∀ r ∈ (init ++ [last]).tail, r.flagS = false
  noEnd : ∀ r ∈ init, r.flagE = false
  isEnd : last.flagE = true
  room : s.cfg.bufCap.all
    (fun cap => decide (s.abuf.length + ((init ++ [last]).map Report.len).sum ≤ cap)) = true

/-- The state after an accepted report that discards nothing: its slice appended, and ABUF emptied by an end flag. -/
def State.continued (s : State) (r : Report) : State :=
  { s with
    abuf := if r.flagE then [] else s.abuf ++ r.slice
    evt := s.evt ||| if r.flagF then 4 else 0
    result := .step (s.stepResult r) }

theorem exec_asm_of_continuing {s : State} {r : Report} (ha : s.Accepts r) (hr : s.resyncs r.flagS = false)
    (hroom : s.cfg.bufCap.all (fun cap => decide (s.abuf.length + r.len ≤ cap)) = true) :
    exec (.asm r) s = .next (s.continued r) := by
  have hfits : s.Fits r := bufCap_all_mono (by split <;> omega) hroom
  rw [exec_asm_of_fits ha hfits, joined_of_no_resync hr, hr]
  simp [State.continued]

/-- Recording F of one report and then of others is recording it of any. -/
theorem or_hcf_or_hcf (e : Byte) (a b : Bool) :
    (e ||| (if a then 4 else 0)) ||| (if b then 4 else 0) = e ||| (if a || b then 4 else 0) := by
  rw [BitVec.or_assoc]
  cases a <;> cases b <;> rfl

/-- After a first report the others are the rest of the command. -/
theorem CommandReports.tail {s : State} {r last : Report} {init : List Report}
    (h : CommandReports s (r :: init) last) : CommandReports (s.continued r) init last where
  accepts x hx := h.accepts x (List.mem_cons_of_mem r hx)
  start x hx := resyncs_of_no_start (h.noStart x (List.mem_of_mem_head? hx))
  noStart x hx := h.noStart x (List.mem_of_mem_tail hx)
  noEnd x hx := h.noEnd x (List.mem_cons_of_mem r hx)
  isEnd := h.isEnd
  room := by
    have habuf : (s.continued r).abuf = s.abuf ++ r.slice := if_neg (by simp [h.noEnd r (by simp)])
    have hroom := h.room
    rw [List.cons_append, List.map_cons, List.sum_cons, ← Nat.add_assoc] at hroom
    rwa [habuf, List.length_append, Report.slice_length]

/-- The reports of one command complete with what ABUF held and their slices, and only the last completes. -/
theorem CommandReports.feed_eq {init : List Report} {last : Report} : ∀ {s : State}, CommandReports s init last →
    ∃ (outs : List PortResult) (v : PortResult),
      feed (init ++ [last]) s = some (outs ++ [v], { s with
        abuf := [], evt := s.evt ||| (if (init ++ [last]).any Report.flagF then 4 else 0), result := v }) ∧
      outs.length = init.length ∧ completions outs = [] ∧
      completions [v] = [s.abuf ++ (init ++ [last]).flatMap Report.slice] := by
  induction init with
  | nil =>
    intro s h
    have hr := h.start last (by simp)
    have hstep := exec_asm_of_continuing (h.accepts last (by simp)) hr (by simpa using h.room)
    refine ⟨[], .step (s.stepResult last), ?feed, rfl, rfl, completions_of_complete ?complete⟩
    case feed => simp [feed, hstep, State.continued, h.isEnd]
    case complete => simp [State.stepResult, h.isEnd, joined_of_no_resync hr]
  | cons r init ih =>
    intro s h
    have hE := h.noEnd r (by simp)
    have hroom : s.cfg.bufCap.all (fun cap => decide (s.abuf.length + r.len ≤ cap)) = true :=
      bufCap_all_mono (by simp only [List.cons_append, List.map_cons, List.sum_cons]; omega) h.room
    have hstep := exec_asm_of_continuing (h.accepts r (by simp)) (h.start r (by simp)) hroom
    obtain ⟨outs, v, hfeed, hlen, hnone, hlast⟩ := ih h.tail
    refine ⟨.step (s.stepResult r) :: outs, v, ?feed, by simp [hlen], ?none, ?last⟩
    case feed =>
      rw [List.cons_append, feed_cons_of_next hstep hfeed, List.any_cons, ← or_hcf_or_hcf]
      rfl
    case none =>
      rw [completions_cons, hnone, completions_of_incomplete (by simp [State.stepResult, hE])]
      rfl
    case last => simp [hlast, State.continued, hE]

/-- Settles O16: from an empty ABUF no start flag discards anything, so the list is the rest of a command. -/
theorem reassemblyLaw : Obligations.ReassemblyLaw := by
  intro s init last hempty haccepts hnoStart hnoEnd hisEnd hroom
  have hcommand : CommandReports s init last :=
    { accepts := haccepts
      start := fun r _ => by simp [resyncs_eq, hempty]
      noStart := hnoStart
      noEnd := hnoEnd
      isEnd := hisEnd
      room := by simpa [hempty] using hroom }
  obtain ⟨outs, v, hfeed, hlen, hnone, hlast⟩ := hcommand.feed_eq
  refine ⟨outs, v, _, hfeed, hlen, hnone, ?_, ?_⟩
  · rw [hlast, hempty, List.nil_append]
  · rw [← hempty]

/-! ### Reports that are no part of a command (R135, second part) -/

/-- What a report completes and leaves in ABUF depends on ABUF and the parameters alone. -/
theorem exec_asm_congr {s t : State} (r : Report) (habuf : s.abuf = t.abuf) (hcfg : s.cfg = t.cfg) :
    ∃ s' t', exec (.asm r) s = .next s' ∧ exec (.asm r) t = .next t' ∧
      s'.result = t'.result ∧ s'.abuf = t'.abuf ∧ s'.cfg = s.cfg ∧ t'.cfg = t.cfg := by
  have hresync : s.resyncs r.flagS = t.resyncs r.flagS := by rw [resyncs_eq, resyncs_eq, habuf]
  have hjoin : s.joined r = t.joined r := by rw [State.joined, State.joined, hresync, habuf]
  by_cases ha : s.Accepts r
  · have ha' : t.Accepts r := by rwa [State.Accepts, ← hcfg]
    by_cases hf : s.Fits r
    · have hf' : t.Fits r := by rwa [State.Fits, ← hcfg, ← habuf]
      exact ⟨_, _, exec_asm_of_fits ha hf, exec_asm_of_fits ha' hf', by simp [State.stepResult, hresync, hjoin],
        by simp [hjoin], rfl, rfl⟩
    · have hf' : ¬ t.Fits r := by rwa [State.Fits, ← hcfg, ← habuf]
      exact ⟨_, _, exec_asm_of_overflow ha hf, exec_asm_of_overflow ha' hf', rfl, by simp [hresync, habuf], rfl, rfl⟩
  · rcases otherKind_or_overlong ha with hkind | ⟨hkind, hlen⟩
    · exact ⟨_, _, exec_asm_of_otherKind hkind, exec_asm_of_otherKind (hcfg ▸ hkind), rfl, habuf, rfl, rfl⟩
    · exact ⟨_, _, exec_asm_of_overlong hkind hlen, exec_asm_of_overlong (hcfg ▸ hkind) hlen, rfl, habuf, rfl, rfl⟩

/-- An ignored or malformed report completes nothing and leaves ABUF. -/
theorem exec_asm_of_not_accepts {s : State} {r : Report} (h : ¬ s.Accepts r) :
    ∃ t, exec (.asm r) s = .next t ∧ t.abuf = s.abuf ∧ t.cfg = s.cfg ∧ completions [t.result] = [] := by
  rcases otherKind_or_overlong h with hkind | ⟨hkind, hlen⟩
  · exact ⟨_, exec_asm_of_otherKind hkind, rfl, rfl, rfl⟩
  · exact ⟨_, exec_asm_of_overlong hkind hlen, rfl, rfl, rfl⟩

/-- A list and its accepted reports complete the same payloads from states with the same ABUF. -/
theorem feed_filter_accepted (rs : List Report) : ∀ {s t : State}, s.abuf = t.abuf → s.cfg = t.cfg →
    ∃ o1 t1 o2 t2, feed rs s = some (o1, t1) ∧ feed (rs.filter fun r => r.accepted s.cfg) t = some (o2, t2) ∧
      completions o1 = completions o2 ∧ t1.abuf = t2.abuf := by
  induction rs with
  | nil => exact fun habuf _ => ⟨[], _, [], _, rfl, rfl, rfl, habuf⟩
  | cons r rest ih =>
    intro s t habuf hcfg
    by_cases ha : s.Accepts r
    · obtain ⟨s', t', hs, ht, hresult, habuf', hcs, hct⟩ := exec_asm_congr r habuf hcfg
      obtain ⟨o1, t1, o2, t2, hfeed1, hfeed2, hsame, hend⟩ := ih habuf' (hcs.trans (hcfg.trans hct.symm))
      rw [List.filter_cons_of_pos (accepted_iff.mpr ha)]
      rw [hcs] at hfeed2
      refine ⟨_, t1, _, t2, feed_cons_of_next hs hfeed1, feed_cons_of_next ht hfeed2, ?_, hend⟩
      rw [completions_cons, completions_cons t'.result, hsame, hresult]
    · obtain ⟨s', hs, habuf', hcs, hnone⟩ := exec_asm_of_not_accepts ha
      obtain ⟨o1, t1, o2, t2, hfeed1, hfeed2, hsame, hend⟩ := ih (habuf'.trans habuf) (hcs.trans hcfg)
      rw [List.filter_cons_of_neg (mt accepted_iff.mp ha)]
      rw [hcs] at hfeed2
      refine ⟨_, t1, _, t2, feed_cons_of_next hs hfeed1, hfeed2, ?_, hend⟩
      rw [completions_cons, hnone, List.nil_append, hsame]

/-- Settles O17, by `feed_filter_accepted` from one state. -/
theorem reassemblyIgnoresInterleavedReports : Obligations.ReassemblyIgnoresInterleavedReports :=
  fun _ rs => feed_filter_accepted rs rfl rfl

end Sys2Proof.Machine

/-! The CommandEncoder (40_command_encoder.md), continued: the reports together make up the command, and the assembler
puts it together again. -/

namespace Sys2Proof.Machine

/-! ### The number of reports (R101) -/

theorem chunkCount_pos (n : Nat) : 0 < chunkCount n := by
  unfold chunkCount
  split <;> omega

theorem le_chunkCount (n : Nat) : n ≤ 61 * chunkCount n := by
  unfold chunkCount
  split <;> omega

/-! ### The payloads -/

theorem encodeReport_payload (c : Params) (cmd : List Byte) (i : Nat) :
    (encodeReport c cmd i).payload = chunk cmd i := by
  have hlen : (chunk cmd i).length ≤ 61 := by rw [chunk_length]; omega
  exact Report.build_payload _ _ _ _ hlen (by rw [BitVec.toNat_ofNat]; omega)

theorem encodeReport_len_le (c : Params) (cmd : List Byte) (i : Nat) : (encodeReport c cmd i).len ≤ 61 := by
  rw [encodeReport_len]
  omega

theorem encodeReport_slice (c : Params) (cmd : List Byte) (i : Nat) : (encodeReport c cmd i).slice = chunk cmd i := by
  rw [← Report.payload_eq_slice _ (encodeReport_len_le c cmd i), encodeReport_payload]

/-- The first `k` chunks are the first `61 * k` bytes. -/
theorem flatMap_chunk (cmd : List Byte) (k : Nat) : (List.range k).flatMap (chunk cmd) = cmd.take (61 * k) := by
  induction k with
  | zero => simp
  | succ k ih =>
    rw [List.range_succ, List.flatMap_append, ih, List.flatMap_singleton, chunk, Nat.mul_succ, List.take_add]

theorem encodeCommand_slices (c : Params) (cmd : List Byte) : (encodeCommand c cmd).flatMap Report.slice = cmd := by
  rw [encodeCommand, List.flatMap_map]
  simp only [encodeReport_slice]
  rw [flatMap_chunk, List.take_of_length_le (le_chunkCount _)]

/-- The lengths of reports sum to the length of their slices together. -/
theorem sum_len_eq_length (rs : List Report) : (rs.map Report.len).sum = (rs.flatMap Report.slice).length := by
  simp [List.length_flatMap, Report.slice_length]

/-! ### The flags (R103) -/

/-- Bits S, E and F of a chunk's flags. -/
theorem chunkFlags_getLsbD (i k : Nat) :
    (chunkFlags i k).getLsbD 2 = decide (i = 0) ∧ (chunkFlags i k).getLsbD 0 = decide (i + 1 = k) ∧
      (chunkFlags i k).getLsbD 1 = false := by
  have bits : ∀ first last : Bool, ∀ f : Byte, f = (if first then 0x04 else 0x00) ||| (if last then 0x01 else 0x00) →
      f.getLsbD 2 = first ∧ f.getLsbD 0 = last ∧ f.getLsbD 1 = false := by
    rintro first last f rfl
    cases first <;> cases last <;> exact ⟨rfl, rfl, rfl⟩
  exact bits _ _ _ (by simp only [chunkFlags, decide_eq_true_eq])

theorem encodeReport_flagS (c : Params) (cmd : List Byte) (i : Nat) :
    (encodeReport c cmd i).flagS = decide (i = 0) :=
  (chunkFlags_getLsbD i (chunkCount cmd.length)).1

theorem encodeReport_flagE (c : Params) (cmd : List Byte) (i : Nat) :
    (encodeReport c cmd i).flagE = decide (i + 1 = chunkCount cmd.length) :=
  (chunkFlags_getLsbD i (chunkCount cmd.length)).2.1

theorem encodeReport_flagF (c : Params) (cmd : List Byte) (i : Nat) : (encodeReport c cmd i).flagF = false :=
  (chunkFlags_getLsbD i (chunkCount cmd.length)).2.2

/-- Exactly one of the first `k` numbers is a given one of them. -/
theorem length_filter_range_eq {k j : Nat} (h : j < k) :
    ((List.range k).filter fun i => decide (i = j)).length = 1 := by
  have hcount := List.count_eq_one_of_mem (List.nodup_range (n := k)) (List.mem_range.mpr h)
  rw [List.count, List.countP_eq_length_filter] at hcount
  exact hcount

/-- The list of a command is the reports before the last, and the last. -/
theorem encodeCommand_eq_append (c : Params) (cmd : List Byte) : encodeCommand c cmd =
    (List.range (chunkCount cmd.length - 1)).map (encodeReport c cmd) ++
      [encodeReport c cmd (chunkCount cmd.length - 1)] := by
  have hk : chunkCount cmd.length = chunkCount cmd.length - 1 + 1 := by have := chunkCount_pos cmd.length; omega
  rw [encodeCommand, hk, List.range_succ, List.map_append, List.map_singleton, ← hk]

theorem encodeCommand_head? (c : Params) (cmd : List Byte) :
    (encodeCommand c cmd).head? = some (encodeReport c cmd 0) := by
  simp [encodeCommand, List.head?_eq_getElem?, chunkCount_pos]

/-- Settles O2: the chunks are consecutive blocks of 61 bytes, and bits S and E mark the first and the last. -/
theorem encReconstructsCommand : Obligations.EncReconstructsCommand := by
  intro s cmd hfits
  have hpos := chunkCount_pos cmd.length
  refine ⟨encodeCommand s.cfg cmd, exec_enc_of_fits hfits, encodeCommand_length .., encodeCommand_slices .., ?sum,
    ?starts, ?ends, ?first, ?last⟩
  case sum => rw [sum_len_eq_length, encodeCommand_slices]
  case starts =>
    rw [encodeCommand, List.filter_map, List.length_map, ← length_filter_range_eq hpos]
    simp only [Function.comp_def, encodeReport_flagS]
  case ends =>
    rw [encodeCommand, List.filter_map, List.length_map,
      ← length_filter_range_eq (show chunkCount cmd.length - 1 < chunkCount cmd.length by omega)]
    simp only [Function.comp_def, encodeReport_flagE]
    congr 2
    funext i
    exact decide_eq_decide.mpr (by omega)
  case first => simp [encodeCommand_head?, encodeReport_flagS]
  case last =>
    rw [encodeCommand_eq_append, List.getLast?_concat, Option.map_some, encodeReport_flagE]
    exact congrArg some (decide_eq_true (by omega))

/-- Settles O4: the refusal is the test of CMD_MAX. -/
theorem encRefusesOnlyOverCmdMax : Obligations.EncRefusesOnlyOverCmdMax := by
  intro s cmd
  have hrefused : exec (.enc cmd) s = .refused (.commandTooLong cmd.length) ↔ tooLong s.cfg cmd = true := by
    rw [exec_enc, execEnc]
    split <;> simp_all
  rw [hrefused, tooLong, Option.any_eq_true]
  simp only [decide_eq_true_eq]

/-! ### Round trip with the assembler (R108) -/

/-- Replacing byte 0 changes neither flags nor payload. -/
theorem asInbound_byte (c : Params) (r : Report) {i : Nat} (hi : i ≠ 0) :
    readByte (asInbound c r).val i = readByte r.val i := by
  simp [readByte, asInbound, List.getElem?_set_ne hi.symm]

theorem asInbound_kindByte (c : Params) (r : Report) : readByte (asInbound c r).val 0 = c.ridCmdIn := by
  have hlen : 0 < r.val.length := by rw [r.property]; omega
  simp [readByte, asInbound, hlen]

theorem asInbound_flags (c : Params) (r : Report) : (asInbound c r).flags = r.flags :=
  asInbound_byte c r (by omega)

theorem asInbound_len (c : Params) (r : Report) : (asInbound c r).len = r.len :=
  congrArg BitVec.toNat (asInbound_byte c r (by omega))

theorem asInbound_slice (c : Params) (r : Report) : (asInbound c r).slice = r.slice := by
  simp only [Report.slice, asInbound_len]
  exact List.map_congr_left fun j _ => asInbound_byte c r (by omega)

/-- Report `i` of a command as the assembler gets it. -/
def inboundReport (c : Params) (cmd : List Byte) (i : Nat) : Report := asInbound c (encodeReport c cmd i)

theorem inboundReport_flagS (c : Params) (cmd : List Byte) (i : Nat) :
    (inboundReport c cmd i).flagS = decide (i = 0) := by
  rw [← encodeReport_flagS c cmd i, Report.flagS, inboundReport, asInbound_flags, Report.flagS]

theorem inboundReport_flagE (c : Params) (cmd : List Byte) (i : Nat) :
    (inboundReport c cmd i).flagE = decide (i + 1 = chunkCount cmd.length) := by
  rw [← encodeReport_flagE c cmd i, Report.flagE, inboundReport, asInbound_flags, Report.flagE]

theorem inboundReport_flagF (c : Params) (cmd : List Byte) (i : Nat) : (inboundReport c cmd i).flagF = false := by
  rw [← encodeReport_flagF c cmd i, Report.flagF, inboundReport, asInbound_flags, Report.flagF]

theorem inboundReport_len_le (c : Params) (cmd : List Byte) (i : Nat) : (inboundReport c cmd i).len ≤ 61 := by
  rw [inboundReport, asInbound_len]
  exact encodeReport_len_le c cmd i

/-- The inbound reports before the last one. -/
def inboundInit (c : Params) (cmd : List Byte) : List Report :=
  (List.range (chunkCount cmd.length - 1)).map (inboundReport c cmd)

/-- The last inbound report. -/
def inboundLast (c : Params) (cmd : List Byte) : Report := inboundReport c cmd (chunkCount cmd.length - 1)

theorem inbound_eq_append (c : Params) (cmd : List Byte) :
    (encodeCommand c cmd).map (asInbound c) = inboundInit c cmd ++ [inboundLast c cmd] := by
  rw [encodeCommand_eq_append, List.map_append, List.map_map]
  rfl

/-- Every inbound report is some `inboundReport`. -/
theorem mem_inbound {c : Params} {cmd : List Byte} {r : Report} (h : r ∈ inboundInit c cmd ++ [inboundLast c cmd]) :
    ∃ i, r = inboundReport c cmd i := by
  rcases List.mem_append.mp h with h | h
  · obtain ⟨i, -, rfl⟩ := List.mem_map.mp h
    exact ⟨i, rfl⟩
  · exact ⟨_, List.mem_singleton.mp h⟩

theorem inbound_slices (c : Params) (cmd : List Byte) :
    (inboundInit c cmd ++ [inboundLast c cmd]).flatMap Report.slice = cmd := by
  rw [← inbound_eq_append, List.flatMap_map]
  simp only [asInbound_slice]
  exact encodeCommand_slices c cmd

/-- Only report 0 has the start flag. -/
theorem inbound_tail_no_start {c : Params} {cmd : List Byte} {r : Report}
    (h : r ∈ (inboundInit c cmd ++ [inboundLast c cmd]).tail) : r.flagS = false := by
  have hall : inboundInit c cmd ++ [inboundLast c cmd] =
      (List.range (chunkCount cmd.length)).map (inboundReport c cmd) := by
    rw [← inbound_eq_append, encodeCommand, List.map_map]
    rfl
  have hk : chunkCount cmd.length = chunkCount cmd.length - 1 + 1 := by have := chunkCount_pos cmd.length; omega
  rw [hall, hk, List.range_succ_eq_map, List.map_cons, List.tail_cons, List.map_map] at h
  obtain ⟨i, -, rfl⟩ := List.mem_map.mp h
  exact inboundReport_flagS c cmd (i + 1)

/-- What ENC produced, as the assembler gets it, is the reports of one command. -/
theorem commandReports_inbound {s : State} {cmd : List Byte} (hempty : s.abuf = [])
    (hcap : s.cfg.bufCap.all (fun cap => decide (cmd.length ≤ cap)) = true) :
    CommandReports s (inboundInit s.cfg cmd) (inboundLast s.cfg cmd) where
  accepts r hr := by
    obtain ⟨i, rfl⟩ := mem_inbound hr
    exact ⟨asInbound_kindByte .., inboundReport_len_le ..⟩
  start r _ := by simp [resyncs_eq, hempty]
  noStart r hr := inbound_tail_no_start hr
  noEnd r hr := by
    obtain ⟨i, hi, rfl⟩ := List.mem_map.mp hr
    rw [inboundReport_flagE]
    exact decide_eq_false (by have := List.mem_range.mp hi; omega)
  isEnd := by
    rw [inboundLast, inboundReport_flagE]
    exact decide_eq_true (by have := chunkCount_pos cmd.length; omega)
  room := by rwa [sum_len_eq_length, inbound_slices, hempty, List.length_nil, Nat.zero_add]

/-- Settles O18: the inbound reports are one command's, their slices make up the command and none has F. -/
theorem encodeThenAssembleRoundTrip : Obligations.EncodeThenAssembleRoundTrip := by
  intro s cmd hempty hmax hcap
  obtain ⟨outs, v, hfeed, hlen, hnone, hlast⟩ := (commandReports_inbound hempty hcap).feed_eq
  have hnoHcf : (inboundInit s.cfg cmd ++ [inboundLast s.cfg cmd]).any Report.flagF = false := by
    rw [List.any_eq_false]
    intro r hr
    obtain ⟨i, rfl⟩ := mem_inbound hr
    simp [inboundReport_flagF]
  refine ⟨encodeCommand s.cfg cmd, outs, v, exec_enc_of_fits hmax, ?feed, ?length, hnone, ?last⟩
  case feed =>
    rw [inbound_eq_append, hfeed, hnoHcf, ← hempty]
    simp
  case length =>
    have := chunkCount_pos cmd.length
    simp only [hlen, inboundInit, List.length_map, List.length_range, encodeCommand_length]
    omega
  case last => rw [hlast, hempty, List.nil_append, inbound_slices]

end Sys2Proof.Machine

/-! The ConfigCodec (42_config_codec.md), continued: the layouts cover their bytes without a gap, so decoding and
encoding are inverse to each other, byte by byte and value by value. -/

namespace Sys2Proof.Machine

/-! ### Blocks of a sequence -/

/-- The `n` elements of a sequence from place `o` on, with a default behind its end. -/
def block {α : Type} (d : α) (l : List α) (o n : Nat) : List α := (List.range n).map fun e => l.getD (o + e) d

section
variable {α : Type} (d : α) (l : List α)

@[simp] theorem block_zero (o : Nat) : block d l o 0 = [] := rfl

theorem block_append {o o' : Nat} (n m : Nat) (h : o' = o + n) :
    block d l o n ++ block d l o' m = block d l o (n + m) := by
  subst h
  simp [block, List.range_add, Nat.add_assoc]

theorem block_one (o : Nat) : block d l o 1 = [l.getD o d] := rfl

theorem getD_cons_block {o o' : Nat} (n : Nat) (h : o' = o + 1) :
    l.getD o d :: block d l o' n = block d l o (1 + n) := by
  rw [← block_append d l 1 n h, block_one, List.singleton_append]

/-- Blocks of `w` elements one behind another are one block. -/
theorem flatMap_block (o w k : Nat) :
    (List.range k).flatMap (fun p => block d l (o + w * p) w) = block d l o (w * k) := by
  induction k with
  | zero => simp
  | succ k ih =>
    rw [List.range_succ, List.flatMap_append, ih, List.flatMap_singleton, block_append d l _ _ rfl, Nat.mul_succ]

/-- A sequence is its own block. -/
theorem block_self {n : Nat} (h : l.length = n) : block d l 0 n = l := by
  apply List.ext_getElem
  · simp [block, h]
  · intro i hi hi'
    simp [block, List.getD_eq_getElem?_getD, hi']

end

/-! ### 250 bytes (R157, first half) -/

theorem readBytes_eq_block (l : List Byte) (o n : Nat) : (readBytes l o n).val = block 0 l o n := rfl

theorem readByte_cons_block (l : List Byte) {o o' : Nat} (n : Nat) (h : o' = o + 1) :
    readByte l o :: block 0 l o' n = block 0 l o (1 + n) :=
  getD_cons_block 0 l n h

theorem block_append_readByte (l : List Byte) {o o' : Nat} (n : Nat) (h : o' = o + n) :
    block 0 l o n ++ [readByte l o'] = block 0 l o (n + 1) :=
  block_append 0 l n 1 h

theorem wordBytes_readWord (l : List Byte) (o : Nat) : wordBytes (readWord l o) = block 0 l o 2 := by
  rw [wordBytes, readWord, lo8_le16, hi8_le16]
  rfl

/-- The fields of sub-record `p` cover its 16 bytes (R79, R154). -/
theorem packPanel_unpackPanel (l : List Byte) (p : Nat) :
    (packPanel (unpackPanel l p)).val = block 0 l (56 + 16 * p) 16 := by
  simp (disch := omega) only [packPanel, unpackPanel, List.cons_append, List.nil_append,
    readBytes_eq_block, wordBytes_readWord, block_append, readByte_cons_block]

/-- The bytes of a record: those before the sub-records, the nine sub-records, and the tail. -/
theorem pack_val (r : ConfigRecord) : (pack r).val =
    (packPrefix r).val ++ (packPanels r.panelSettings).val ++ [r.preDetailsDelayMilliseconds] ++ r.padding.val := rfl

theorem packPanels_val (ps : Vec PanelSensorSettings 9) :
    (packPanels ps).val = ps.val.flatMap fun q => (packPanel q).val := rfl

theorem packPrefix_val (r : ConfigRecord) : (packPrefix r).val =
    [r.masterVersion, r.configVersion, r.flags] ++
      wordBytes r.debounceNodelayMilliseconds ++ wordBytes r.debounceDelayMilliseconds ++
      wordBytes r.panelDebounceMicroseconds ++
      [r.autoCalibrationMaxDeviation, r.badSensorMinimumDelaySeconds] ++
      wordBytes r.autoCalibrationAveragesPerUpdate ++ wordBytes r.autoCalibrationSamplesPerAverage ++
      wordBytes r.autoCalibrationMaxTare ++
      r.enabledSensors.val ++ [r.autoLightsTimeout] ++ r.stepColor.val ++ r.platformStripColor.val ++
      wordBytes r.autoLightPanelMask ++ [r.panelRotation] := rfl

theorem unpack_panelSettings (b : Bytes 250) :
    (unpack b).panelSettings.val = (List.range 9).map (unpackPanel b.val) := rfl

theorem packPanels_unpack (b : Bytes 250) :
    (packPanels (unpack b).panelSettings).val = block 0 b.val 56 144 := by
  rw [packPanels_val, unpack_panelSettings, List.flatMap_map]
  simp only [packPanel_unpackPanel]
  exact flatMap_block 0 b.val 56 16 9

theorem packPrefix_unpack (b : Bytes 250) : (packPrefix (unpack b)).val = block 0 b.val 0 56 := by
  simp (disch := omega) only [packPrefix_val, unpack, List.append_assoc, List.cons_append, List.nil_append,
    readBytes_eq_block, wordBytes_readWord, block_append, readByte_cons_block, block_append_readByte]

/-- The fields of the record cover the 250 bytes (R78, R156). -/
theorem pack_unpack (b : Bytes 250) : pack (unpack b) = b := by
  apply Subtype.ext
  rw [pack_val, packPrefix_unpack, packPanels_unpack]
  simp (disch := omega) only [unpack, List.append_assoc, List.cons_append, List.nil_append,
    readBytes_eq_block, block_append, readByte_cons_block]
  exact block_self 0 b.val b.property

/-! ### The record (R157, second half) -/

/-- A field of fixed extent at the head of two equal sequences is the same in both. -/
theorem vec_append_inj {α : Type} {n : Nat} {a b : Vec α n} {x y : List α} :
    a.val ++ x = b.val ++ y ↔ a = b ∧ x = y := by
  refine ⟨fun h => ?_, fun ⟨hab, hxy⟩ => by rw [hab, hxy]⟩
  obtain ⟨hab, hxy⟩ := List.append_inj h (a.property.trans b.property.symm)
  exact ⟨Subtype.ext hab, hxy⟩

theorem wordBytes_inj {v w : Word} : wordBytes v = wordBytes w ↔ v = w := by
  refine ⟨fun h => ?_, congrArg wordBytes⟩
  simp only [wordBytes, List.cons.injEq, and_true] at h
  rw [← le16_lo8_hi8 v, ← le16_lo8_hi8 w, h.1, h.2]

theorem wordBytes_append_inj {v w : Word} {x y : List Byte} :
    wordBytes v ++ x = wordBytes w ++ y ↔ v = w ∧ x = y := by
  refine ⟨fun h => ?_, fun ⟨hvw, hxy⟩ => by rw [hvw, hxy]⟩
  obtain ⟨hvw, hxy⟩ := List.append_inj h rfl
  exact ⟨wordBytes_inj.mp hvw, hxy⟩

/-- Concatenations of blocks of one length are equal only block by block. -/
theorem flatMap_inj_of_length_eq {α β : Type} {f : α → List β} {k : Nat} (hf : ∀ a, (f a).length = k)
    (hinj : ∀ a b, f a = f b → a = b) : ∀ {l m : List α}, l.length = m.length → l.flatMap f = m.flatMap f → l = m
  | [], [], _, _ => rfl
  | a :: l, b :: m, hlen, h => by
    rw [List.flatMap_cons, List.flatMap_cons] at h
    obtain ⟨hhead, htail⟩ := List.append_inj h ((hf a).trans (hf b).symm)
    rw [hinj a b hhead, flatMap_inj_of_length_eq hf hinj (Nat.succ.inj hlen) htail]

theorem packPanel_injective (q q' : PanelSensorSettings) (h : (packPanel q).val = (packPanel q').val) : q = q' := by
  cases q
  cases q'
  simpa only [packPanel, List.append_assoc, List.cons_append, List.nil_append, List.cons.injEq, vec_append_inj,
    wordBytes_append_inj, wordBytes_inj, PanelSensorSettings.mk.injEq] using h

theorem packPanels_inj {ps ps' : Vec PanelSensorSettings 9} : packPanels ps = packPanels ps' ↔ ps = ps' := by
  refine ⟨fun h => Subtype.ext ?_, congrArg packPanels⟩
  exact flatMap_inj_of_length_eq (fun q => (packPanel q).property) packPanel_injective
    (ps.property.trans ps'.property.symm) (congrArg Subtype.val h)

/-- Every field has a fixed extent, so a record is determined by its image. -/
theorem pack_injective {r r' : ConfigRecord} (h : pack r = pack r') : r = r' := by
  replace h := congrArg Subtype.val h
  cases r
  cases r'
  simpa only [pack_val, packPrefix_val, List.append_assoc, List.cons_append, List.nil_append, List.cons.injEq,
    vec_append_inj, wordBytes_append_inj, packPanels_inj, ConfigRecord.mk.injEq, Subtype.val_inj] using h

theorem unpack_pack (r : ConfigRecord) : unpack (pack r) = r := pack_injective (pack_unpack (pack r))

theorem exec_cfge (r : ConfigRecord) (s : State) :
    exec (.cfge r) s = .next { s with result := .image (pack r) } := rfl

/-- Settles O25, by `pack_unpack` and `unpack_pack`. -/
theorem cfgRoundTrip : Obligations.CfgRoundTrip := by
  intro s
  refine ⟨fun b => ⟨unpack b, exec_cfgd_image b s, ?decodeEncode⟩, fun r => ⟨pack r, exec_cfge r s, ?encodeDecode⟩⟩
  case decodeEncode => rw [exec_cfge, pack_unpack]
  case encodeDecode => rw [exec_cfgd_image, unpack_pack]

/-! ### Every value at its offset (R156) -/

/-- Element `i` of the field table reads value `i` of a record from its image. -/
theorem flatValues_pack (r : ConfigRecord) : flatValues (pack r) = (recordValues r).map BitVec.toNat := by
  rw [← recordValues_unpack, unpack_pack]

/-- Value `i` is the byte or the word that the image of the record holds at offset `o`. -/
theorem recordValues_toNat {r : ConfigRecord} {i o w : Nat} {v : Word} (hi : fieldElements[i]? = some (o, w))
    (hv : (recordValues r)[i]? = some v) :
    v.toNat = if w = 1 then (readByte (pack r).val o).toNat else (readWord (pack r).val o).toNat := by
  have hread : (flatValues (pack r))[i]? = some v.toNat := by rw [flatValues_pack, List.getElem?_map, hv]; rfl
  rw [flatValues, List.getElem?_map, hi] at hread
  exact (Option.some.inj hread).symm

theorem readWord_toNat (l : List Byte) (o : Nat) :
    (readWord l o).toNat = (readByte l o).toNat + 256 * (readByte l (o + 1)).toNat :=
  le16_toNat _ _

/-- Settles O24: the value is read from the image at its offset, and its low and high byte with it. -/
theorem cfgeWritesFieldTable : Obligations.CfgeWritesFieldTable := by
  intro s r
  refine ⟨pack r, exec_cfge r s, fun i o w v hi hv => ?_⟩
  have hvalue := recordValues_toNat hi hv
  have hlow := (readByte (pack r).val o).isLt
  by_cases hw : w = 1
  · rw [if_pos hw] at hvalue
    exact ⟨by omega, fun hw2 => by omega⟩
  · rw [if_neg hw, readWord_toNat] at hvalue
    exact ⟨by omega, fun _ => by omega⟩

/-- Settles O23: the length test of CFGD, with the default record as the fallback. -/
theorem cfgdRejectsWrongLength : Obligations.CfgdRejectsWrongLength := by
  intro s b hlen
  rw [exec_cfgd, decodeConfig, dif_neg hlen]
  rfl

/-! ### Values that fit their fields (R150) -/

/-- Row by row, the elements of the field table stand from the row's field index on. -/
theorem fieldElements_of_mem_fieldTable : ∀ f ∈ fieldTable, ∀ e < f.count,
    fieldElements[f.index + e]? = some (f.offset + f.width * e, f.width) := by
  decide +kernel

theorem fieldElements_width : ∀ x ∈ fieldElements, x.2 = 1 ∨ x.2 = 2 := by
  decide +kernel

theorem fieldElements_length : fieldElements.length = 216 := by
  decide +kernel

theorem valuesFit_iff {v : List Word} : valuesFit v = true ↔
    ∀ (i : Nat) (x : Word) (o w : Nat), v[i]? = some x → fieldElements[i]? = some (o, w) → w = 2 ∨ x.toNat < 256 := by
  simp only [valuesFit, List.all_eq_true, Bool.or_eq_true, decide_eq_true_eq]
  constructor
  · intro h i x o w hx hw
    exact h (x, o, w) (List.mem_of_getElem? (i := i) (List.getElem?_zip_eq_some.mpr ⟨hx, hw⟩))
  · rintro h ⟨x, o, w⟩ hmem
    obtain ⟨i, hi⟩ := List.getElem?_of_mem hmem
    obtain ⟨hx, hw⟩ := List.getElem?_zip_eq_some.mp hi
    exact h i x o w hx hw

theorem valuesFit_recordValues (r : ConfigRecord) : valuesFit (recordValues r) = true := by
  rw [valuesFit_iff]
  intro i x o w hx hw
  have hvalue := recordValues_toNat hw hx
  rcases fieldElements_width _ (List.mem_of_getElem? hw) with hw1 | hw2
  · rw [if_pos hw1] at hvalue
    exact .inr (by have := (readByte (pack r).val o).isLt; omega)
  · exact .inl hw2

/-- The field table has a row of `n` bytes from field index `i` on. -/
abbrev ByteRow (i n : Nat) : Prop := ∃ f ∈ fieldTable, f.width = 1 ∧ f.index = i ∧ f.count = n

/-- The four byte rows of sub-record `p` (R79). -/
theorem byteRow_panel : ∀ p < 9, ByteRow (49 + 13 * p) 1 ∧ ByteRow (49 + 13 * p + 1) 1 ∧
    ByteRow (49 + 13 * p + 2) 4 ∧ ByteRow (49 + 13 * p + 6) 4 := by
  decide +kernel

/-- The values of a byte row that fit are the bytes of the row, widened. -/
theorem map_zext16_valueBytes {v : List Word} (hfit : valuesFit v = true) (hlen : v.length = 216) {i n : Nat}
    (hrow : ByteRow i n) : (valueBytes v i n).val.map zext16 = block 0 v i n := by
  obtain ⟨f, hf, hwidth, rfl, rfl⟩ := hrow
  simp only [valueBytes, Vec.tab, block, List.map_map]
  apply List.map_congr_left
  intro e he
  have helem := fieldElements_of_mem_fieldTable _ hf e (List.mem_range.mp he)
  have hi : f.index + e < v.length := by
    rw [hlen, ← fieldElements_length]
    exact (List.getElem?_eq_some_iff.mp helem).1
  rcases valuesFit_iff.mp hfit _ _ _ _ (List.getElem?_eq_getElem hi) helem with hword | hsmall
  · exact absurd (hwidth.symm.trans hword) (by decide)
  · simp [valueByte, List.getD_eq_getElem?_getD, hi, zext16_lo8 hsmall]

theorem zext16_valueByte {v : List Word} (hfit : valuesFit v = true) (hlen : v.length = 216) {i : Nat}
    (hrow : ByteRow i 1) : zext16 (valueByte v i) = v.getD i 0 :=
  (List.cons.inj (map_zext16_valueBytes hfit hlen hrow)).1

/-! ### The value list and the record -/

theorem panelValues_panelOfValues {v : List Word} (hfit : valuesFit v = true) (hlen : v.length = 216) {p : Nat}
    (hp : p < 9) : panelValues (panelOfValues v p) = block 0 v (49 + 13 * p) 13 := by
  obtain ⟨hlow, hhigh, hfsrLow, hfsrHigh⟩ := byteRow_panel p hp
  simp (disch := omega) only [panelValues, panelOfValues, zext16_valueByte hfit hlen hlow,
    zext16_valueByte hfit hlen hhigh, map_zext16_valueBytes hfit hlen hfsrLow,
    map_zext16_valueBytes hfit hlen hfsrHigh, valueWord, ← block_one, block_append, getD_cons_block]

theorem panels_recordOfValues {v : List Word} (hfit : valuesFit v = true) (hlen : v.length = 216) :
    (recordOfValues v).panelSettings.val.flatMap panelValues = block 0 v 49 117 := by
  have hpanels : (recordOfValues v).panelSettings.val = (List.range 9).map (panelOfValues v) := rfl
  rw [hpanels, List.flatMap_map, ← flatMap_block 0 v 49 13 9]
  exact List.flatMap_congr fun p hp => panelValues_panelOfValues hfit hlen (List.mem_range.mp hp)

/-- A value list that fits is that of the record made of it. -/
theorem recordValues_recordOfValues {v : List Word} (hfit : valuesFit v = true) (hlen : v.length = 216) :
    recordValues (recordOfValues v) = v := by
  have hbyte : ∀ i, ByteRow i 1 → zext16 (valueByte v i) = v.getD i 0 := fun _ => zext16_valueByte hfit hlen
  have hbytes : ∀ i n, ByteRow i n → (valueBytes v i n).val.map zext16 = block 0 v i n :=
    fun _ _ => map_zext16_valueBytes hfit hlen
  rw [recordValues, panels_recordOfValues hfit hlen]
  simp (disch := decide) only [recordOfValues, hbyte, hbytes, valueWord]
  simp (disch := omega) only [← block_one, block_append, getD_cons_block]
  exact block_self 0 v hlen

theorem zext16_inj {a b : Byte} : zext16 a = zext16 b ↔ a = b :=
  ⟨fun h => by rw [← lo8_zext16 a, ← lo8_zext16 b, h], congrArg zext16⟩

theorem map_zext16_inj {n : Nat} {a b : Bytes n} : a.val.map zext16 = b.val.map zext16 ↔ a = b :=
  ⟨fun h => Subtype.ext (List.map_injective_iff.mpr (fun _ _ => zext16_inj.mp) h), fun h => by rw [h]⟩

theorem map_zext16_append_inj {n : Nat} {a b : Bytes n} {x y : List Word} :
    a.val.map zext16 ++ x = b.val.map zext16 ++ y ↔ a = b ∧ x = y := by
  refine ⟨fun h => ?_, fun ⟨hab, hxy⟩ => by rw [hab, hxy]⟩
  obtain ⟨hab, hxy⟩ := List.append_inj h (by simp [Vec.length])
  exact ⟨map_zext16_inj.mp hab, hxy⟩

theorem panelValues_injective (q q' : PanelSensorSettings) (h : panelValues q = panelValues q') : q = q' := by
  cases q
  cases q'
  simpa only [panelValues, List.append_assoc, List.cons_append, List.nil_append, List.cons.injEq, and_true,
    zext16_inj, map_zext16_append_inj, PanelSensorSettings.mk.injEq] using h

theorem flatMap_panelValues_append_inj {ps ps' : Vec PanelSensorSettings 9} {x y : List Word} :
    ps.val.flatMap panelValues ++ x = ps'.val.flatMap panelValues ++ y ↔ ps = ps' ∧ x = y := by
  refine ⟨fun h => ?_, fun ⟨hps, hxy⟩ => by rw [hps, hxy]⟩
  have hsize : ps.val.length = ps'.val.length := ps.property.trans ps'.property.symm
  obtain ⟨hps, hxy⟩ := List.append_inj h (by rw [flatMap_panelValues_length, flatMap_panelValues_length, hsize])
  exact ⟨Subtype.ext (flatMap_inj_of_length_eq panelValues_length panelValues_injective hsize hps), hxy⟩

/-- A record is determined by its 216 values. -/
theorem recordValues_injective {r r' : ConfigRecord} (h : recordValues r = recordValues r') : r = r' := by
  cases r
  cases r'
  simpa only [recordValues, List.append_assoc, List.cons_append, List.nil_append, List.cons.injEq, zext16_inj,
    map_zext16_inj, map_zext16_append_inj, flatMap_panelValues_append_inj, ConfigRecord.mk.injEq] using h

theorem recordOfValues_recordValues (r : ConfigRecord) : recordOfValues (recordValues r) = r :=
  recordValues_injective (recordValues_recordOfValues (valuesFit_recordValues r) (recordValues_length r))

/-! ### CFGU -/

theorem exec_cfgu (p : List Byte) (s : State) : exec (.cfgu p) s = .next (unwrapConfig p s) := rfl

/-- Byte `j` of an overlaid image comes from the data while it lasts (R175). -/
theorem readByte_overlay (dflt : Bytes 250) (data : List Byte) {j : Nat} (hj : j < 250) :
    readByte (overlay dflt data).val j = if j < data.length then readByte data j else readByte dflt.val j := by
  have hlen : (data.take 250).length = min 250 data.length := List.length_take
  rw [overlay]
  split
  case isTrue h => rw [readByte_append_left (by omega), readByte_take hj]
  case isFalse h =>
    rw [readByte_append_right (by omega), readByte_drop]
    congr 1
    omega

/-- Settles O26: the image is the default overlaid with the declared bytes. -/
theorem cfguOverlaysDefault : Obligations.CfguOverlaysDefault := by
  intro s p hlen hsize
  refine ⟨overlay s.cfg.cfgDefault ((p.drop 2).take (readByte p 1).toNat), ?_, fun j hj => ?_⟩
  · rw [exec_cfgu, unwrapConfig, if_neg (by omega), if_neg (by omega)]
    rfl
  · have hdata : ((p.drop 2).take (readByte p 1).toNat).length = (readByte p 1).toNat := by
      rw [List.length_take, List.length_drop]
      omega
    rw [readByte_overlay _ _ hj, hdata]
    split
    case isTrue h => rw [readByte_take h, readByte_drop]
    case isFalse => rfl

/-- Settles O27: the two length tests of CFGU have the same result. -/
theorem cfguRejectsShortPayload : Obligations.CfguRejectsShortPayload := by
  intro s p hshort
  rw [exec_cfgu, unwrapConfig]
  by_cases hlen : p.length < 2
  · rw [if_pos hlen]
    rfl
  · rw [if_neg hlen, if_pos (hshort.resolve_left hlen)]
    rfl

/-! ### IDD -/

theorem exec_idd (p : List Byte) (s : State) : exec (.idd p) s = .next (decodeIdentity p s) := rfl

theorem hexDigit_eq {n : Nat} (h : n < 16) : some (hexDigit n) =
    ['0', '1', '2', '3', '4', '5', '6', '7', '8', '9', 'A', 'B', 'C', 'D', 'E', 'F'][n]? := by
  rw [hexDigit, List.getD_eq_getElem?_getD, List.getElem?_eq_getElem h]
  rfl

/-- Byte `i` is rendered as its two digits at `2 * i`, high nibble first (R171). -/
theorem hexUpper_getElem? {n : Nat} (s : Bytes n) {i q : Nat} (hi : i < n) (hq : q < 2) :
    (hexUpper s).val[2 * i + q]? =
      [hexDigit ((readByte s.val i).toNat / 16), hexDigit ((readByte s.val i).toNat % 16)][q]? :=
  getElem?_flatMap_of_length_eq (f := fun b : Byte => [hexDigit (b.toNat / 16), hexDigit (b.toNat % 16)])
    (fun _ => rfl) (getElem?_eq_readByte (by rw [s.property]; exact hi)) hq

/-- Settles O28, field by field of `identityOf`. -/
theorem iddReadsIdentity : Obligations.IddReadsIdentity := by
  intro s p hlen
  refine ⟨identityOf p, ?_, rfl, readWord_toNat p 20, _, rfl, fun i hi => ?_⟩
  · rw [exec_idd, decodeIdentity, if_neg (by omega)]
    rfl
  · have hserial : readByte (readBytes p 4 16).val i = readByte p (4 + i) := by
      rw [readBytes, readByte_tab, if_pos hi]
    have hbyte := (readByte p (4 + i)).isLt
    refine ⟨hserial, ?high, ?low⟩
    case high =>
      rw [← hexDigit_eq (by omega), ← hserial]
      exact hexUpper_getElem? (q := 0) _ hi (by omega)
    case low =>
      rw [← hexDigit_eq (by omega), ← hserial]
      exact hexUpper_getElem? _ hi (by omega)

/-- Settles O29: the fallback of IDD is `noIdentity`. -/
theorem iddRejectsShortPayload : Obligations.IddRejectsShortPayload := by
  intro s p hlen
  refine ⟨noIdentity, ?_, rfl, rfl, rfl⟩
  rw [exec_idd, decodeIdentity, if_pos hlen]
  rfl

end Sys2Proof.Machine

/-! The DiagnosticDecoder (43_diagnostic_decoder.md): a panel's record is its bit of the 80 words. -/

namespace Sys2Proof.Machine

theorem exec_diag (w : List Word) (s : State) : exec (.diag w) s = .next (decodeDiagnostic w s) := rfl

theorem exec_diag_of_enough {w : List Word} (h : 80 ≤ w.length) (s : State) :
    exec (.diag w) s = .next { s with result := .frame .ok (diagnosticFrame w) } := by
  rw [exec_diag, decodeDiagnostic, if_neg (by omega)]
  rfl

/-! ### The record of a panel (R192) -/

theorem readByte_panelRecord (w : List Word) (p : Nat) {j : Nat} (hj : j < 10) :
    readByte (panelRecord w p).val j = gather w p j := by
  rw [panelRecord, readByte_tab, if_pos hj]

/-- Ten bytes whose bit `k` of byte `j` is bit `p` of word `8*j + k` are the record of panel `p`. -/
theorem eq_panelRecord {w : List Word} {p : Nat} {d : Bytes 10}
    (h : ∀ j k, j < 10 → k < 8 → (readByte d.val j).getLsbD k = (w.getD (8 * j + k) 0).getLsbD p) :
    d = panelRecord w p := by
  apply Bytes.ext_readByte
  intro j hj
  rw [readByte_panelRecord w p hj]
  apply BitVec.eq_of_getLsbD_eq
  intro k hk
  rw [h j k hj hk, gather_getLsbD w p j k hk]

/-- Inputs that agree in bit `p` of the first 80 words give panel `p` one record. -/
theorem panelRecord_congr {w w' : List Word} {p : Nat}
    (h : ∀ i, i < 80 → (w.getD i 0).getLsbD p = (w'.getD i 0).getLsbD p) : panelRecord w p = panelRecord w' p := by
  apply eq_panelRecord
  intro j k hj hk
  rw [readByte_panelRecord w p hj, gather_getLsbD w p j k hk, h _ (by omega)]

theorem diagnosticFrame_getElem? (w : List Word) {p : Nat} (hp : p < 9) :
    (diagnosticFrame w).val[p]? = some (parsePanel (panelRecord w p)) := by
  rw [diagnosticFrame, Vec.tab_getElem?, if_pos hp]

/-! ### Parsing a record (R193 to R198) -/

theorem signaturePresent_iff (d : Bytes 10) : signaturePresent d = true ↔ (readByte d.val 0).toNat % 8 = 2 := by
  have key : ∀ b : BitVec 8, b &&& 0x07 = 0x02 ↔ b.toNat % 8 = 2 := by decide
  rw [signaturePresent, decide_eq_true_iff]
  exact key _

theorem parsePanel_of_present {d : Bytes 10} (h : (readByte d.val 0).toNat % 8 = 2) :
    parsePanel d = some (panelDiagOf d) :=
  if_pos ((signaturePresent_iff d).mpr h)

theorem parsePanel_of_absent {d : Bytes 10} (h : (readByte d.val 0).toNat % 8 ≠ 2) : parsePanel d = none :=
  if_neg (mt (signaturePresent_iff d).mp h)

/-- Settles O30: the ten bytes are the panel's record, and each field of a present panel is read from them. -/
theorem diagDecodesPanels : Obligations.DiagDecodesPanels := by
  intro s w hlen
  refine ⟨diagnosticFrame w, exec_diag_of_enough hlen s, fun p d hp hd => ?_⟩
  rw [diagnosticFrame_getElem? w hp, ← eq_panelRecord hd]
  refine ⟨fun h => congrArg some (parsePanel_of_absent h), fun h => ⟨panelDiagOf d, ?parsed, ?dip, fun i hi => ?fields⟩⟩
  case parsed => rw [parsePanel_of_present h]
  case dip => simp [panelDiagOf]
  case fields =>
    refine ⟨?bad, ?jumper, _, rfl, ?sensor⟩
    case bad => simp [panelDiagOf, hi]
    case jumper => simp [panelDiagOf, hi]
    case sensor =>
      have hnext : 1 + 2 * i + 1 = 2 + 2 * i := by omega
      rw [panelDiagOf, Vec.tab_getElem?, if_pos hi, readWord, s16_le16, hnext]

/-- Settles O31: the first 80 words give every panel its record. -/
theorem diagLengthRule : Obligations.DiagLengthRule := by
  intro s w
  refine ⟨fun hshort => ⟨absentFrame, ?short, rfl⟩, fun hlen => ⟨diagnosticFrame w, exec_diag_of_enough hlen s, ?long⟩⟩
  case short =>
    rw [exec_diag, decodeDiagnostic, if_pos hshort]
    rfl
  case long =>
    have hsame : diagnosticFrame (w.take 80) = diagnosticFrame w := by
      apply Vec.ext_getElem
      intro p hp
      rw [diagnosticFrame_getElem? _ hp, diagnosticFrame_getElem? _ hp]
      refine congrArg (some ∘ parsePanel) (panelRecord_congr fun i hi => ?_)
      rw [List.getD_eq_getElem?_getD, List.getElem?_take_of_lt hi, List.getD_eq_getElem?_getD]
    rw [exec_diag_of_enough (by rw [List.length_take]; omega), hsame]

/-- Settles O32: the panel has one record in both inputs. -/
theorem diagPanelsIndependent : Obligations.DiagPanelsIndependent := by
  intro s w w' p hp hlen hlen' hagree
  refine ⟨_, _, exec_diag_of_enough hlen s, exec_diag_of_enough hlen' s, ?_⟩
  rw [diagnosticFrame_getElem? w hp, diagnosticFrame_getElem? w' hp, panelRecord_congr hagree]

end Sys2Proof.Machine

/-! What an instruction can do to a state (10_state.md R20, R26), said once for all of them. -/

namespace Sys2Proof.Machine

/-! ### The effect of an instruction -/

/-- ASM and the rows of the table that append to ABUF. -/
def Frames (i : Instr) : Prop :=
  ∃ r, i = .asm r ∨ i = .asmMid r ∨ i = .asmEnd r ∨ i = .asmStart r ∨ i = .asmSingle r ∨ i = .asmHcf r ∨
    i = .asmDevinfo r

/-- ASM and the row of the table that drop a malformed report. -/
def DropsMalformed (i : Instr) : Prop := ∃ r, i = .asm r ∨ i = .asmMalformed r

/-- The five things an instruction can do: return something, run the framing steps, drop a malformed report, empty
ABUF, clear events. -/
inductive Effect (s : State) : Instr → State → Prop
  | returns (i : Instr) (v : PortResult) : Effect s i (s.deliver v)
  | assembles {i : Instr} (hi : Frames i) (start done hcf devinfo : Bool) (data : List Byte) :
      Effect s i (s.assemble start done hcf devinfo data)
  | drops {i : Instr} (hi : DropsMalformed i) (n : Byte) : Effect s i (s.dropMalformed n)
  | clearsAbuf : Effect s .aclr ((s.setAbuf []).deliver .none)
  | clearsEvt (m : Byte) : Effect s (.eclr m) ((s.clearEvt m).deliver .none)

theorem effect_asm (r : Report) {s t : State} (h : exec (.asm r) s = .next t) : Effect s (.asm r) t := by
  by_cases ha : s.Accepts r
  · cases (exec_asm_of_accepts ha).symm.trans h
    exact .assembles ⟨r, by simp⟩ ..
  · rcases otherKind_or_overlong ha with hkind | ⟨hkind, hlen⟩
    · cases (exec_asm_of_otherKind hkind).symm.trans h
      exact .returns ..
    · cases (exec_asm_of_overlong hkind hlen).symm.trans h
      exact .drops ⟨r, by simp⟩ _

theorem effect_inp (r : Report) {s t : State} (h : exec (.inp r) s = .next t) : Effect s (.inp r) t := by
  cases (exec_inp r s).symm.trans h
  exact .returns ..

theorem effect_enc (cmd : List Byte) {s t : State} (h : exec (.enc cmd) s = .next t) : Effect s (.enc cmd) t := by
  rw [exec_enc, execEnc] at h
  split at h
  · cases h
  · cases h
    exact .returns ..

theorem effect_decodeConfig (i : Instr) (b : List Byte) (s : State) : Effect s i (decodeConfig b s) := by
  obtain ⟨k, rec, h⟩ := decodeConfig_frame b s
  exact h ▸ .returns i _

theorem effect_unwrapConfig (i : Instr) (p : List Byte) (s : State) : Effect s i (unwrapConfig p s) := by
  obtain ⟨k, rec, h⟩ := unwrapConfig_frame p s
  exact h ▸ .returns i _

theorem effect_decodeIdentity (i : Instr) (p : List Byte) (s : State) : Effect s i (decodeIdentity p s) := by
  obtain ⟨k, id, h⟩ := decodeIdentity_frame p s
  exact h ▸ .returns i _

theorem effect_decodeDiagnostic (i : Instr) (w : List Word) (s : State) : Effect s i (decodeDiagnostic w s) := by
  obtain ⟨k, f, h⟩ := decodeDiagnostic_frame w s
  exact h ▸ .returns i _

/-- Whenever an instruction answers a next state, it is by one of the five effects. -/
theorem effect_of_exec {i : Instr} {s t : State} (h : exec i s = .next t) : Effect s i t := by
  cases i with
  | enc cmd => exact effect_enc cmd h
  | asm r => exact effect_asm r h
  | aclr => cases h; exact .clearsAbuf
  | inp r => exact effect_inp r h
  | eclr m => cases h; exact .clearsEvt m
  | cfgd b => cases h; exact effect_decodeConfig _ b s
  | cfge record => cases h; exact .returns ..
  | cfgu p => cases h; exact effect_unwrapConfig _ p s
  | idd p => cases h; exact effect_decodeIdentity _ p s
  | diag w => cases h; exact effect_decodeDiagnostic _ w s
  | asmMid r => cases h; exact .assembles ⟨r, by simp⟩ ..
  | asmEnd r => cases h; exact .assembles ⟨r, by simp⟩ ..
  | asmStart r => cases h; exact .assembles ⟨r, by simp⟩ ..
  | asmSingle r => cases h; exact .assembles ⟨r, by simp⟩ ..
  | asmMalformed r => cases h; exact .drops ⟨r, by simp⟩ _
  | asmIgnored r => cases h; exact .returns ..
  | asmHcf r => cases h; exact .assembles ⟨r, by simp⟩ ..
  | asmDevinfo r => cases h; exact .assembles ⟨r, by simp⟩ ..
  | inpReport r => cases h; exact .returns ..
  | tagGetDeviceInfo body => cases h; exact effect_decodeIdentity ..
  | tagGetConfig body => cases h; exact .returns ..
  | tagGetConfigV5 body => cases h; exact effect_unwrapConfig ..
  | tagWriteConfig body => cases h; exact .returns ..
  | tagWriteConfigV5 body => cases h; exact effect_unwrapConfig ..
  | tagFactoryReset body => cases h; exact .returns ..
  | tagSetLightStrip body => cases h; exact .returns ..
  | tagForceRecalibration body => cases h; exact .returns ..
  | tagGetSensorTestData body => cases h; exact effect_decodeDiagnostic ..

/-! ### Frame and events -/

/-- No effect reaches beyond ABUF, EVT and the result. -/
theorem Effect.frame {i : Instr} {s t : State} (h : Effect s i t) :
    t = { s with abuf := t.abuf, evt := t.evt, result := t.result } := by
  cases h with
  | returns => rfl
  | assembles _ start done hcf devinfo data =>
    obtain ⟨b, e, res, heq⟩ := assemble_frame s start done hcf devinfo data
    rw [heq]
  | drops => rfl
  | clearsAbuf => rfl
  | clearsEvt => rfl

theorem exec_frame {i : Instr} {s t : State} (h : exec i s = .next t) :
    t = { s with abuf := t.abuf, evt := t.evt, result := t.result } :=
  (effect_of_exec h).frame

/-- An effect other than that of ECLR sets events at most. -/
theorem Effect.evt_eq_or {i : Instr} {s t : State} (h : Effect s i t) (hi : ∀ m, i ≠ .eclr m) :
    ∃ e, t.evt = s.evt ||| e := by
  cases h with
  | returns => exact ⟨0, by simp⟩
  | assembles _ start done hcf devinfo data =>
    obtain ⟨b, e, res, heq⟩ := assemble_frame s start done hcf devinfo data
    exact ⟨e, by rw [heq]⟩
  | drops => exact ⟨1, rfl⟩
  | clearsAbuf => exact ⟨0, by simp⟩
  | clearsEvt m => exact absurd rfl (hi m)

/-- Settles O41, effect by effect. -/
theorem execWritesOnlyAbufEvtResult : Obligations.ExecWritesOnlyAbufEvtResult := by
  intro i s t h
  refine ⟨exec_frame h, fun hne => ?_⟩
  have hframes : ¬ Frames i := by
    rintro ⟨r, hr⟩
    obtain ⟨h1, h2, h3, h4, h5, h6, h7⟩ := hne r
    rcases hr with hr | hr | hr | hr | hr | hr | hr <;> contradiction
  cases effect_of_exec h with
  | returns => exact ⟨fun _ => rfl, fun _ _ => rfl⟩
  | assembles hi => exact absurd hi hframes
  | drops hi =>
    obtain ⟨r, hr⟩ := hi
    exact ⟨fun _ => rfl, fun hmalformed _ => absurd hr (not_or.mpr ⟨(hne r).1, hmalformed r⟩)⟩
  | clearsAbuf => exact ⟨fun haclr => absurd rfl haclr, fun _ _ => rfl⟩
  | clearsEvt m => exact ⟨fun _ => rfl, fun _ heclr => absurd rfl (heclr m)⟩

/-- Settles O42: every other effect joins bits to EVT. -/
theorem onlyEclrClearsEvents : Obligations.OnlyEclrClearsEvents := by
  intro i s t hi h k hk
  obtain ⟨e, he⟩ := (effect_of_exec h).evt_eq_or hi
  rw [he, BitVec.getLsbD_or, hk, Bool.true_or]

end Sys2Proof.Machine

/-! The decoder and the encoder (30_encoding.md): they are inverse to each other in each of the three places. -/

namespace Sys2Proof.Machine

/-! ### The operation port -/

theorem decodeOp_cons {b : Byte} (x : List Byte) (h : b.toNat < 16) : decodeOp (b :: x) = decodeSelect b.toNat x :=
  if_neg (by omega)

theorem decodeReportOperand_val (op : Nat) (r : Report) (k : Report → Instr) :
    decodeReportOperand op r.val k = .ok (k r) :=
  dif_pos r.property

theorem decodeRecordOperand_recordValues (r : ConfigRecord) :
    decodeRecordOperand (bytesOfWords (recordValues r)) = .ok (.cfge r) := by
  rw [decodeRecordOperand, if_pos (by rw [bytesOfWords_length, recordValues_length]), wordsOfBytes_bytesOfWords,
    if_pos (valuesFit_recordValues r), recordOfValues_recordValues]

theorem decodeWordOperand_bytesOfWords (w : List Word) : decodeWordOperand (bytesOfWords w) = .ok (.diag w) := by
  rw [decodeWordOperand, if_pos (by rw [bytesOfWords_length]; omega), wordsOfBytes_bytesOfWords]

theorem decodeSelect_of_unassigned {op : Nat} (x : List Byte) (h : 0xA ≤ op) :
    decodeSelect op x = .error (.unassignedOp op) := by
  obtain ⟨m, rfl⟩ := Nat.exists_eq_add_of_le' h
  rfl

/-- Settles O39: past the ten selects only the two rejections are left. -/
theorem unassignedSelectsRejected : Obligations.UnassignedSelectsRejected := by
  intro c b x hb
  by_cases hwide : 16 ≤ b.toNat
  · exact ⟨_, if_pos hwide, fun h => by omega⟩
  · exact ⟨_, (decodeOp_cons x (by omega)).trans (decodeSelect_of_unassigned x hb), fun _ => rfl⟩

/-- A report operand that decodes is the report's bytes. -/
theorem eq_of_decodeReportOperand {op : Nat} {x : List Byte} {k : Report → Instr} {i : Instr}
    (h : decodeReportOperand op x k = .ok i) : ∃ r : Report, i = k r ∧ r.val = x := by
  unfold decodeReportOperand at h
  split at h
  case isTrue hx =>
    cases h
    exact ⟨⟨x, hx⟩, rfl, rfl⟩
  case isFalse => cases h

/-- A record operand that decodes is the bytes of the record's values. -/
theorem eq_of_decodeRecordOperand {x : List Byte} {i : Instr} (h : decodeRecordOperand x = .ok i) :
    ∃ r : ConfigRecord, i = .cfge r ∧ bytesOfWords (recordValues r) = x := by
  unfold decodeRecordOperand at h
  split at h
  case isTrue hx =>
    split at h
    case isTrue hfit =>
      cases h
      refine ⟨_, rfl, ?_⟩
      rw [recordValues_recordOfValues hfit (by rw [wordsOfBytes_length, hx]), bytesOfWords_wordsOfBytes x (by rw [hx])]
    case isFalse => cases h
  case isFalse => cases h

/-- A word operand that decodes is the bytes of its words. -/
theorem eq_of_decodeWordOperand {x : List Byte} {i : Instr} (h : decodeWordOperand x = .ok i) :
    ∃ w : List Word, i = .diag w ∧ bytesOfWords w = x := by
  unfold decodeWordOperand at h
  split at h
  case isTrue hx =>
    cases h
    exact ⟨_, rfl, bytesOfWords_wordsOfBytes x hx⟩
  case isFalse => cases h

/-- The encoding of what a select and an operand decode to leads with that select. -/
theorem encode_of_decodeSelect (c : Params) {op : Nat} {x : List Byte} {i : Instr} (h : decodeSelect op x = .ok i) :
    encode c i = .op (BitVec.ofNat 8 op :: x) := by
  unfold decodeSelect at h
  split at h
  case h_1 => cases h; rfl
  case h_2 => obtain ⟨r, rfl, rfl⟩ := eq_of_decodeReportOperand h; rfl
  case h_3 =>
    split at h
    · cases h; simp [encode, *]
    · cases h
  case h_4 => obtain ⟨r, rfl, rfl⟩ := eq_of_decodeReportOperand h; rfl
  case h_5 =>
    split at h
    · cases h; rfl
    · cases h
  case h_6 => cases h; rfl
  case h_7 => obtain ⟨r, rfl, rfl⟩ := eq_of_decodeRecordOperand h; rfl
  case h_8 => cases h; rfl
  case h_9 => cases h; rfl
  case h_10 => obtain ⟨w, rfl, rfl⟩ := eq_of_decodeWordOperand h; rfl
  case h_11 => cases h

theorem encode_of_decodeOp (c : Params) {bytes : List Byte} {i : Instr} (h : decodeOp bytes = .ok i) :
    encode c i = .op bytes := by
  cases bytes with
  | nil => cases h
  | cons b x =>
    by_cases hwide : 16 ≤ b.toNat
    · rw [decodeOp, if_pos hwide] at h
      cases h
    · rw [decodeOp_cons x (by omega)] at h
      rw [encode_of_decodeSelect c h, BitVec.ofNat_toNat, BitVec.setWidth_eq]

/-! ### A raw report -/

/-- A report is an input row exactly when it is of kind INPUT (R75). -/
theorem decodeReport_eq (c : Params) (r : Report) : decodeReport c r =
    if r.kindByte ≠ c.ridCmdIn ∧ r.kindByte = c.ridInput then .inpReport r else asmRow c r := by
  unfold decodeReport Report.kind
  by_cases hcmd : r.kindByte = c.ridCmdIn
  · rw [if_pos hcmd, if_neg (fun h => h.1 hcmd)]
  · rw [if_neg hcmd]
    by_cases hin : r.kindByte = c.ridInput
    · rw [if_pos hin, if_pos ⟨hcmd, hin⟩]
    · rw [if_neg hin, if_neg (fun h => hin h.2)]

theorem decodeReport_of_command {c : Params} {r : Report} (h : r.kindByte = c.ridCmdIn) :
    decodeReport c r = asmRow c r := by
  rw [decodeReport_eq, if_neg (fun hin => hin.1 h)]

theorem encode_framingRow (c : Params) (r : Report) : encode c (framingRow r) = .report r := by
  unfold framingRow
  cases r.flagS <;> cases r.flagE <;> rfl

theorem encode_asmRow (c : Params) (r : Report) : encode c (asmRow c r) = .report r := by
  unfold asmRow
  split
  case isTrue => rfl
  case isFalse =>
    split
    case isTrue => rfl
    case isFalse =>
      split
      case isTrue => rfl
      case isFalse =>
        split
        case isTrue => rfl
        case isFalse => exact encode_framingRow c r

theorem encode_decodeReport (c : Params) (r : Report) : encode c (decodeReport c r) = .report r := by
  rw [decodeReport_eq]
  split
  · rfl
  · exact encode_asmRow c r

/-- An accepted report with neither modifier is its framing row. -/
theorem decodeReport_of_framing {c : Params} {r : Report} (ha : r.accepted c = true) (hF : r.flagF = false)
    (hD : r.flagD = false) : decodeReport c r = framingRow r := by
  obtain ⟨hkind, hlen⟩ := accepted_iff.mp ha
  rw [decodeReport_of_command hkind, asmRow, if_neg (not_not_intro hkind), if_neg (by omega), hD, hF]
  rfl

/-- The conditions of a framing row, in terms of the four flags. -/
theorem decodeReport_of_framing_masks {c : Params} {r : Report} (start done : Bool)
    (h : (r.accepted c && r.flagsMatch 0x05 ((if start then 4 else 0) + (if done then 1 else 0)) &&
      r.flagsMatch 0x82 0x00) = true) :
    decodeReport c r = framingRow r ∧ r.flagS = start ∧ r.flagE = done := by
  rw [Report.flagsMatch_05, Report.flagsMatch_82_zero] at h
  simp only [Bool.and_eq_true, beq_iff_eq, Bool.not_eq_true'] at h
  obtain ⟨⟨ha, hS, hE⟩, hF, hD⟩ := h
  exact ⟨decodeReport_of_framing ha hF hD, hS, hE⟩

theorem decode_report (c : Params) (r : Report) : decode c (.report r) = .ok (decodeReport c r) := rfl

/-! ### A completed payload -/

theorem decodeTag_of_not_mem {t : Tags} {b : Byte} (body : List Byte) (h : b ∉ t.toList) :
    decodeTag t b body = .error (.unknownTag (some b)) := by
  simp only [Tags.toList, List.mem_cons, List.not_mem_nil, or_false, not_or] at h
  obtain ⟨h1, h2, h3, h4, h5, h6, h7, h8, h9⟩ := h
  rw [decodeTag, if_neg h1, if_neg h2, if_neg h3, if_neg h4, if_neg h5, if_neg h6, if_neg h7, if_neg h8, if_neg h9]

/-- Whatever tag a payload leads with, its row leads with that tag when encoded. -/
theorem encode_of_decodeTag {c : Params} {b : Byte} {body : List Byte} {i : Instr}
    (h : decodeTag c.tags b body = .ok i) : encode c i = .payload (b :: body) := by
  unfold decodeTag at h
  split_ifs at h with hb hb hb hb hb hb hb hb hb <;> cases h <;> rw [hb] <;> rfl

theorem encode_of_decodePayload {c : Params} {p : List Byte} {i : Instr} (h : decodePayload c p = .ok i) :
    encode c i = .payload p := by
  cases p with
  | nil => cases h
  | cons b body => exact encode_of_decodeTag h

/-- With nine different tags each tag finds its own row (R8, R90). -/
theorem decodeTag_of_nodup {t : Tags} (h : t.toList.Nodup) (body : List Byte) :
    decodeTag t t.getDeviceInfo body = .ok (.tagGetDeviceInfo body) ∧
    decodeTag t t.getConfig body = .ok (.tagGetConfig body) ∧
    decodeTag t t.getConfigV5 body = .ok (.tagGetConfigV5 body) ∧
    decodeTag t t.writeConfig body = .ok (.tagWriteConfig body) ∧
    decodeTag t t.writeConfigV5 body = .ok (.tagWriteConfigV5 body) ∧
    decodeTag t t.factoryReset body = .ok (.tagFactoryReset body) ∧
    decodeTag t t.setLightStrip body = .ok (.tagSetLightStrip body) ∧
    decodeTag t t.forceRecalibration body = .ok (.tagForceRecalibration body) ∧
    decodeTag t t.getSensorTestData body = .ok (.tagGetSensorTestData body) := by
  simp only [Tags.toList, List.nodup_cons, List.mem_cons, List.not_mem_nil, or_false, not_or] at h
  unfold decodeTag
  grind

/-! ### The three places together -/

/-- Settles O37: in each place the decoder keeps every bit it reads. -/
theorem encodeOfDecode : Obligations.EncodeOfDecode := by
  intro c w i h
  cases w with
  | op bytes => exact encode_of_decodeOp c h
  | report r =>
    cases h
    exact encode_decodeReport c r
  | payload p => exact encode_of_decodePayload h

theorem decode_payload_cons (c : Params) (b : Byte) (body : List Byte) :
    decode c (.payload (b :: body)) = decodeTag c.tags b body := rfl

theorem decode_encode_cfge (c : Params) (r : ConfigRecord) : decode c (encode c (.cfge r)) = .ok (.cfge r) := by
  have hselect : ∀ x, decode c (.op (0x06 :: x)) = decodeRecordOperand x := fun _ => rfl
  rw [encode, hselect, decodeRecordOperand_recordValues]

theorem decode_encode_diag (c : Params) (w : List Word) : decode c (encode c (.diag w)) = .ok (.diag w) := by
  have hselect : ∀ x, decode c (.op (0x09 :: x)) = decodeWordOperand x := fun _ => rfl
  rw [encode, hselect, decodeWordOperand_bytesOfWords]

/-- Settles O36: an operand decodes from its own bytes, a report row's conditions are those under which the decoder
chooses it, and each of the nine tags finds its row. -/
theorem decodeOfEncode : Obligations.DecodeOfEncode := by
  intro c i hcfg hwf
  obtain ⟨-, -, hnodup, -⟩ := hcfg
  cases i with
  | enc cmd => rfl
  | asm r => exact decodeReportOperand_val 1 r .asm
  | aclr => rfl
  | inp r => exact decodeReportOperand_val 3 r .inp
  | eclr m => rfl
  | cfgd b => rfl
  | cfge record => exact decode_encode_cfge c record
  | cfgu p => rfl
  | idd p => rfl
  | diag w => exact decode_encode_diag c w
  | asmMid r =>
    obtain ⟨hrow, hS, hE⟩ := decodeReport_of_framing_masks false false hwf
    rw [encode, decode_report, hrow, framingRow, hS, hE]
  | asmEnd r =>
    obtain ⟨hrow, hS, hE⟩ := decodeReport_of_framing_masks false true hwf
    rw [encode, decode_report, hrow, framingRow, hS, hE]
  | asmStart r =>
    obtain ⟨hrow, hS, hE⟩ := decodeReport_of_framing_masks true false hwf
    rw [encode, decode_report, hrow, framingRow, hS, hE]
  | asmSingle r =>
    obtain ⟨hrow, hS, hE⟩ := decodeReport_of_framing_masks true true hwf
    rw [encode, decode_report, hrow, framingRow, hS, hE]
  | asmMalformed r =>
    simp only [Instr.WellFormed, Bool.and_eq_true, decide_eq_true_eq] at hwf
    obtain ⟨hkind, hlen⟩ := hwf
    rw [encode, decode_report, decodeReport_of_command hkind, asmRow, if_neg (not_not_intro hkind), if_pos (by omega)]
  | asmIgnored r =>
    simp only [Instr.WellFormed, Bool.and_eq_true, decide_eq_true_eq] at hwf
    obtain ⟨hcmd, hin⟩ := hwf
    rw [encode, decode_report, decodeReport_eq, if_neg (fun h => hin h.2), asmRow, if_pos hcmd]
  | asmHcf r =>
    simp only [Instr.WellFormed, Bool.and_eq_true, accepted_iff, Report.flagsMatch_02, Report.flagsMatch_80_zero,
      Bool.not_eq_true'] at hwf
    obtain ⟨⟨⟨hkind, hlen⟩, hF⟩, hD⟩ := hwf
    rw [encode, decode_report, decodeReport_of_command hkind, asmRow, if_neg (not_not_intro hkind),
      if_neg (by omega), if_neg (by simp [hD]), if_pos hF]
  | asmDevinfo r =>
    simp only [Instr.WellFormed, Bool.and_eq_true, accepted_iff, Report.flagsMatch_80] at hwf
    obtain ⟨⟨hkind, hlen⟩, hD⟩ := hwf
    rw [encode, decode_report, decodeReport_of_command hkind, asmRow, if_neg (not_not_intro hkind),
      if_neg (by omega), if_pos hD]
  | inpReport r =>
    simp only [Instr.WellFormed, Bool.and_eq_true, decide_eq_true_eq] at hwf
    rw [encode, decode_report, decodeReport_eq, if_pos hwf]
  | tagGetDeviceInfo body => simp only [encode, decode_payload_cons, decodeTag_of_nodup hnodup]
  | tagGetConfig body => simp only [encode, decode_payload_cons, decodeTag_of_nodup hnodup]
  | tagGetConfigV5 body => simp only [encode, decode_payload_cons, decodeTag_of_nodup hnodup]
  | tagWriteConfig body => simp only [encode, decode_payload_cons, decodeTag_of_nodup hnodup]
  | tagWriteConfigV5 body => simp only [encode, decode_payload_cons, decodeTag_of_nodup hnodup]
  | tagFactoryReset body => simp only [encode, decode_payload_cons, decodeTag_of_nodup hnodup]
  | tagSetLightStrip body => simp only [encode, decode_payload_cons, decodeTag_of_nodup hnodup]
  | tagForceRecalibration body => simp only [encode, decode_payload_cons, decodeTag_of_nodup hnodup]
  | tagGetSensorTestData body => simp only [encode, decode_payload_cons, decodeTag_of_nodup hnodup]

/-- Settles O38: each word is the encoding of the instruction it stands for, whose operand is read off it. -/
theorem decodeSampleWords : Obligations.DecodeSampleWords :=
  ⟨rfl, rfl, rfl, rfl, rfl, rfl, rfl⟩

end Sys2Proof.Machine

/-! Response dispatch (44_device_session_host.md R219) and the step (30_encoding.md R85, R91). -/

namespace Sys2Proof.Machine

/-! ### The tag rows -/

theorem exec_tagGetSensorTestData (body : List Byte) (s : State) : exec (.tagGetSensorTestData body) s =
    .next (decodeDiagnostic (wordsOfBytes ((s.cfg.tags.getSensorTestData :: body).drop
      (streamStart s.cfg (s.cfg.tags.getSensorTestData :: body)))) s) := rfl

/-- Settles O33: three tags hand the payload to the decoder that IDD and CFGU run, five hand it out whole. -/
theorem tagsDispatchByEcho : Obligations.TagsDispatchByEcho := by
  intro s body
  refine ⟨⟨decodeIdentity (s.cfg.tags.getDeviceInfo :: body) s, unwrapConfig (s.cfg.tags.getConfigV5 :: body) s,
    unwrapConfig (s.cfg.tags.writeConfigV5 :: body) s, rfl, exec_idd _ s, rfl, exec_cfgu _ s, rfl, exec_cfgu _ s⟩,
    rfl, rfl, rfl, rfl, rfl⟩

theorem streamStart_at {c : Params} {n : Nat} (h : c.streamRule = .at n) (payload : List Byte) :
    streamStart c payload = n := by
  rw [streamStart, h]

/-- Settles O34: the stream starts where `streamStart` says, which is the offset when that is fixed. -/
theorem tagSensorDataDispatchesToDiag : Obligations.TagSensorDataDispatchesToDiag := fun s body =>
  ⟨streamStart s.cfg (s.cfg.tags.getSensorTestData :: body), _, fun _ h => streamStart_at h _,
    exec_tagGetSensorTestData body s, exec_diag _ s⟩

/-! ### A step -/

theorem step_of_events {s : State} {e : Event} {rest : List Event} (h : s.events = e :: rest) :
    step s = handle e { s with events := rest } := by
  rw [step, h]

theorem issueOp_of_ok {bytes : List Byte} {s : State} {i : Instr} (h : decode s.cfg (.op bytes) = .ok i) :
    issueOp bytes s = exec i s := by
  rw [issueOp, h]

theorem dispatchPending_of_ok {s : State} {p : List Byte} {i : Instr} (hp : s.pending = some p)
    (h : decode s.cfg (.payload p) = .ok i) : dispatchPending s = exec i { s with pending := none } := by
  rw [dispatchPending, hp]
  simp only [h]

theorem dispatchPending_of_error {s : State} {p : List Byte} {e : DecodeError} (hp : s.pending = some p)
    (h : decode s.cfg (.payload p) = .error e) :
    dispatchPending s = .next (unknownOpcode p.head? { s with pending := none }) := by
  rw [dispatchPending, hp]
  simp only [h]

/-- A payload without one of the nine tags is rejected (R219). -/
theorem decodePayload_of_no_tag {c : Params} {p : List Byte} (h : ∀ b, p.head? = some b → b ∉ c.tags.toList) :
    ∃ e, decode c (.payload p) = .error e := by
  cases p with
  | nil => exact ⟨_, rfl⟩
  | cons b body => exact ⟨_, decodeTag_of_not_mem body (h b rfl)⟩

/-- Settles O35: the decoder rejects such a payload, and the rejected payload is dropped before the error is raised. -/
theorem dispatchFailsClosed : Obligations.DispatchFailsClosed := by
  intro s p rest hevents hpending hno
  obtain ⟨e, he⟩ := decodePayload_of_no_tag hno
  rw [step_of_events hevents, handle, dispatchPending_of_error (s := { s with events := rest }) hpending he]
  rfl

end Sys2Proof.Machine

/-! DeviceSession and the host side (44_device_session_host.md): one lemma for each thing a procedure can do, and from
them the statements on sending, waiting, timeouts, the reader and configuration writes. -/

namespace Sys2Proof.Machine

/-! ### What an operation leaves to the host -/

/-- An instruction changes ABUF, EVT and the result, and nothing the host keeps. -/
theorem exec_eq_update {i : Instr} {s t : State} (h : exec i s = .next t) :
    ∃ (b : List Byte) (e : Byte) (v : PortResult), t = { s with abuf := b, evt := e, result := v } :=
  ⟨_, _, _, exec_frame h⟩

theorem exec_wait {i : Instr} {s t : State} (h : exec i s = .next t) : t.wait = s.wait := by rw [exec_frame h]
theorem exec_session {i : Instr} {s t : State} (h : exec i s = .next t) : t.session = s.session := by rw [exec_frame h]
theorem exec_cfg {i : Instr} {s t : State} (h : exec i s = .next t) : t.cfg = s.cfg := by rw [exec_frame h]

/-- A report of kind INPUT is given to INP (R211). -/
theorem exec_decodeReport_of_input {s : State} {r : Report} (hcfg : s.cfg.Ok) (h : r.kindByte = s.cfg.ridInput) :
    exec (decodeReport s.cfg r) s = exec (.inp r) s := by
  obtain ⟨hids, -⟩ := hcfg
  have hcmd : r.kindByte ≠ s.cfg.ridCmdIn := fun hcmd => hids (hcmd.symm.trans h)
  rw [decodeReport_eq, if_pos ⟨hcmd, h⟩, exec_inpReport, exec_inp, if_pos h]

/-- A report of any other kind is given to ASM (R211). -/
theorem exec_decodeReport_of_not_input {s : State} {r : Report}
    (h : r.kindByte = s.cfg.ridCmdIn ∨ r.kindByte ≠ s.cfg.ridInput) :
    exec (decodeReport s.cfg r) s = exec (.asm r) s := by
  rw [decodeReport_eq, if_neg (fun hin => h.elim hin.1 (fun hne => hne hin.2)), exec_asmRow]

/-! ### The session's states -/

theorem settle_of_waiting {s : State} (h : s.session = .awaitingResponse ∨ s.session = .resynchronized) :
    s.settle = { s with session := .awaitingResponse } := by
  rcases h with h | h
  · rw [settle_of_awaiting h, ← h]
  · rw [State.settle, h]

theorem settle_of_timedOut {s : State} (h : s.session = .timedOut) : s.settle = { s with session := .idle } := by
  rw [State.settle, h]

theorem settle_of_resynchronized {s : State} (h : s.session = .resynchronized) :
    s.settle = { s with session := .awaitingResponse } := by
  rw [State.settle, h]

theorem expired_of_wait {s : State} {w : Wait} (h : s.wait = some w) : s.expired = decide (w.deadline ≤ s.now) := by
  rw [State.expired, h, Option.any_some]

theorem expired_of_no_wait {s : State} (h : s.wait = none) : s.expired = false := by
  rw [State.expired, h, Option.any_none]

/-! ### One turn of the session (R213, R214) -/

theorem timeOut_eq (s : State) : timeOut s = .next { s with
    abuf := [], result := .none, session := .timedOut, wait := none, ret := .error .timeout } := rfl

theorem takeQueued_of_cons {s : State} {r : Report} {q : List Report} (h : s.queue = r :: q) :
    takeQueued s = andThen (exec (decodeReport s.cfg r) { s with queue := q }) fun t => .next (afterReport t) := by
  rw [takeQueued, h]

theorem handle_take_of_expired {s : State} (h : s.settle.expired = true) : handle .take s = timeOut s.settle := by
  rw [handle, sessionTake, if_pos h]

theorem handle_take_of_not_expired {s : State} (h : s.settle.expired = false) :
    handle .take s = takeQueued s.settle := by
  rw [handle, sessionTake, if_neg (by simp [h])]

theorem afterReport_of_no_wait {s : State} (h : s.wait = none) : afterReport s = s := by
  unfold afterReport
  split
  · simp_all
  · rfl

theorem afterReport_of_input {s : State} {ignored : Bool} {pressed : BitVec 9}
    (h : s.result = .input ignored pressed) : afterReport s = s := by
  unfold afterReport
  split
  · simp_all
  · rfl

theorem afterReport_of_step {s : State} {w : Wait} {res : StepResult} (hw : s.wait = some w)
    (hres : s.result = .step res) : afterReport s = afterStep w res s := by
  rw [afterReport, hw, hres]

/-- An idle session gives the oldest report to its operation and does nothing more. -/
theorem handle_take_of_idle {s t : State} {r : Report} {q : List Report} (hidle : s.session = .idle)
    (hw : s.wait = none) (hq : s.queue = r :: q)
    (hexec : exec (decodeReport s.cfg r) { s with queue := q } = .next t) : handle .take s = .next t := by
  rw [handle_take_of_not_expired (by rw [settle_of_idle hidle, expired_of_no_wait hw]), settle_of_idle hidle,
    takeQueued_of_cons hq, hexec, andThen_next]
  obtain ⟨b, e, v, rfl⟩ := exec_eq_update hexec
  rw [afterReport_of_no_wait (by exact hw)]

/-- A waiting session gives the oldest report to its operation and then looks at what that returned. -/
theorem handle_take_of_waiting {s t : State} {w : Wait} {r : Report} {q : List Report}
    (hs : s.session = .awaitingResponse ∨ s.session = .resynchronized) (hw : s.wait = some w)
    (hnow : s.now < w.deadline) (hq : s.queue = r :: q)
    (hexec : exec (decodeReport s.cfg r) { s with queue := q, session := .awaitingResponse } = .next t) :
    handle .take s = .next (afterReport t) := by
  have hexpired : s.settle.expired = false := by
    rw [expired_of_wait ((settle_wait s).trans hw), settle_now]
    exact decide_eq_false (by omega)
  rw [handle_take_of_not_expired hexpired, settle_of_waiting hs, takeQueued_of_cons (by exact hq), hexec, andThen_next]

/-- The turn on a report that is not of kind INPUT. -/
theorem handle_take_asm {s t : State} {w : Wait} {r : Report} {q : List Report}
    (hs : s.session = .awaitingResponse ∨ s.session = .resynchronized) (hw : s.wait = some w)
    (hnow : s.now < w.deadline) (hq : s.queue = r :: q)
    (hkind : r.kindByte = s.cfg.ridCmdIn ∨ r.kindByte ≠ s.cfg.ridInput)
    (hexec : exec (.asm r) { s with queue := q, session := .awaitingResponse } = .next t) :
    handle .take s = .next (afterReport t) := by
  apply handle_take_of_waiting hs hw hnow hq
  rw [← hexec]
  exact exec_decodeReport_of_not_input (s := { s with queue := q, session := .awaitingResponse }) hkind

/-- The turn on a report of kind INPUT: the wait looks at nothing. -/
theorem handle_take_inp {s t : State} {w : Wait} {r : Report} {q : List Report}
    (hs : s.session = .awaitingResponse ∨ s.session = .resynchronized) (hw : s.wait = some w)
    (hnow : s.now < w.deadline) (hq : s.queue = r :: q) (hcfg : s.cfg.Ok) (hkind : r.kindByte = s.cfg.ridInput)
    (hexec : exec (.inp r) { s with queue := q, session := .awaitingResponse } = .next t) :
    handle .take s = .next t := by
  have htake : handle .take s = .next (afterReport t) := by
    apply handle_take_of_waiting hs hw hnow hq
    rw [← hexec]
    exact exec_decodeReport_of_input (s := { s with queue := q, session := .awaitingResponse }) hcfg hkind
  rw [exec_inp, if_pos (by exact hkind)] at hexec
  cases hexec
  exact htake.trans (congrArg _ (afterReport_of_input rfl))

/-! ### What the wait makes of a step result (R213, R215, R219) -/

theorem afterStep_of_ack {w : Wait} {res : StepResult} {s : State} (honly : w.ackOnly = true)
    (hack : isAck s.cfg res = true) : afterStep w res s = s.complete .ack := by
  rw [afterStep, honly, hack]
  rfl

theorem afterStep_of_accepted {w : Wait} {res : StepResult} {s : State} {p : List Byte}
    (hack : w.ackOnly = true → isAck s.cfg res = false) (hp : res.outcome = .complete p)
    (haccepts : accepts w.cmd p = true) :
    afterStep w res s = { s.complete (.payload p) with pending := some p } := by
  rw [afterStep, if_neg (by simpa using hack), hp]
  exact if_pos haccepts

theorem afterStep_of_unasked {w : Wait} {res : StepResult} {s : State}
    (hack : w.ackOnly = true → isAck s.cfg res = false)
    (hp : ∀ p, res.outcome = .complete p → accepts w.cmd p = false) :
    afterStep w res s = if res.resync then { s with session := .resynchronized } else s := by
  rw [afterStep, if_neg (by simpa using hack)]
  cases hout : res.outcome with
  | incomplete => rfl
  | complete p => exact if_neg (by simp [hp p hout])

theorem accepts_cons_cons (b t : Byte) (body tail : List Byte) :
    accepts (t :: tail) (b :: body) = decide (b = t) := rfl

theorem accepts_eq_false {cmd p : List Byte}
    (h : p = [] ∨ ∃ b c, p.head? = some b ∧ cmd.head? = some c ∧ b ≠ c) : accepts cmd p = false := by
  rcases h with rfl | ⟨b, c, hb, hc, hne⟩
  · rfl
  · obtain ⟨body, rfl⟩ := List.head?_eq_some_iff.mp hb
    obtain ⟨tail, rfl⟩ := List.head?_eq_some_iff.mp hc
    exact decide_eq_false hne

/-- Settles O51: the turn is a timeout whatever is queued, and the return leaves TIMED_OUT for IDLE. -/
theorem timeoutLeavesCleanSession : Obligations.TimeoutLeavesCleanSession := by
  intro s w hs hw hdeadline
  have hexpired : s.settle.expired = true := by
    rw [expired_of_wait ((settle_wait s).trans hw), settle_now]
    exact decide_eq_true hdeadline
  refine ⟨_, (handle_take_of_expired hexpired).trans (timeOut_eq _), ?_, ?_⟩
  · rw [settle_of_waiting hs]
  · exact congrArg Host.Outcome.next (settle_of_timedOut rfl)

/-- Settles O52: the report goes to ASM, and its payload is one the wait accepts. -/
theorem acceptedPayloadEndsWait : Obligations.AcceptedPayloadEndsWait := by
  intro s t w r q tag tail body res hs hw hnow hq hcmd hack hkind hexec hres hout
  have hw' : t.wait = some w := (exec_wait hexec).trans hw
  have haccepts : accepts w.cmd (tag :: body) = true := by rw [hcmd, accepts_cons_cons, decide_eq_true rfl]
  rw [handle_take_asm hs hw hnow hq (.inl hkind) hexec, afterReport_of_step hw' hres,
    afterStep_of_accepted (by rwa [exec_cfg hexec]) hout haccepts]
  rfl

/-- Settles O53: INP returns nothing the wait looks at; ASM returns a step that neither acknowledges nor answers. -/
theorem unsolicitedPayloadKeepsWaiting : Obligations.UnsolicitedPayloadKeepsWaiting := by
  intro s t w r q hs hw hnow hq hcfg
  refine ⟨handle_take_inp hs hw hnow hq hcfg, fun res hkind hexec hres hack hout => ?_⟩
  have hw' : t.wait = some w := (exec_wait hexec).trans hw
  have hsession : t.session = .awaitingResponse := exec_session hexec
  have htake := handle_take_asm hs hw hnow hq (.inr hkind) hexec
  rw [afterReport_of_step hw' hres,
    afterStep_of_unasked (by rwa [exec_cfg hexec]) fun p hp => accepts_eq_false (hout p hp)] at htake
  refine ⟨_, htake, ?_⟩
  cases res.resync
  · exact ⟨by simp [← hsession], hw', settle_of_awaiting hsession⟩
  · exact ⟨rfl, hw', (settle_of_resynchronized rfl).trans (by rw [← hsession]; rfl)⟩

/-- Settles O54: the step result has the report's F bit, which the default predicate reads. -/
theorem hcfAcknowledges : Obligations.HcfAcknowledges := by
  intro s w r q hs hw hnow hq honly hrule ha hf hF
  obtain ⟨t, hexec, hres⟩ : ∃ t, exec (.asm r) { s with queue := q } = .next t ∧
      t.result = .step (State.stepResult { s with queue := q } r) := ⟨_, exec_asm_of_fits ha hf, rfl⟩
  have hsame : { s with queue := q } = { s with queue := q, session := .awaitingResponse } := by rw [← hs]
  have hw' : t.wait = some w := (exec_wait hexec).trans hw
  have hack : isAck t.cfg (State.stepResult { s with queue := q } r) = true := by
    simp [exec_cfg hexec, isAck, hrule, State.stepResult, hF]
  refine ⟨t, hexec, ?_⟩
  rw [hsame] at hexec
  rw [handle_take_asm (.inl hs) hw hnow hq (.inl ha.1) hexec, afterReport_of_step hw' hres, afterStep_of_ack honly hack]
  rfl

/-! ### The reader and the idle session (R210, R211, R221) -/

theorem readReturns_of_room {r : Report} {s : State} (h : s.queue.length < s.cfg.queueCap) : readReturns r s =
    .next { s with queue := s.queue ++ [r], reading := none, lastRead := .report r } :=
  if_pos h

theorem handle_read_of_nothing {s : State} (hr : s.reading = none) (hc : s.channel = []) (timeout : Nat) :
    handle (.read timeout) s = .next { s with reading := some (s.now + timeout), lastRead := .none } := by
  rw [handle, startRead, hr, hc]
  rfl

theorem handle_read_of_report {s : State} {r : Report} {c : List Report} (hr : s.reading = none)
    (hc : s.channel = r :: c) (timeout : Nat) :
    handle (.read timeout) s = readReturns r { s with channel := c } := by
  rw [handle, startRead, hr, hc]
  rfl

theorem handle_arrive_of_reading {s : State} {deadline : Nat} (hr : s.reading = some deadline)
    (h : s.now ≤ deadline) (r : Report) : handle (.arrive r) s = readReturns r s := by
  rw [handle, arrive, hr]
  exact if_pos (decide_eq_true h)

theorem handle_arrive_of_not_reading {s : State} (h : ∀ deadline, s.reading = some deadline → deadline < s.now)
    (r : Report) : handle (.arrive r) s = .next { s with channel := s.channel ++ [r] } := by
  rw [handle, arrive]
  apply if_neg
  rw [Option.any_eq_true]
  rintro ⟨deadline, hr, hin⟩
  have := h deadline hr
  simp only [decide_eq_true_eq] at hin
  omega

theorem handle_readEmpty {s : State} {deadline : Nat} (hr : s.reading = some deadline) : handle .readEmpty s =
    .next (if deadline ≤ s.now then { s with reading := none, lastRead := .empty } else s) := by
  rw [handle, readEmpty, hr]
  simp

/-- Settles O55: each clause is the equation of its procedure in that case. -/
theorem idleSessionTakesReportsInOrder : Obligations.IdleSessionTakesReportsInOrder := by
  intro s
  refine ⟨handle_read_of_nothing, fun hr hroom timeout r c hc => ?read, fun r deadline hr hin hroom => ?arrive,
    fun r h => handle_arrive_of_not_reading h r, fun deadline => handle_readEmpty,
    fun r q hcfg hidle hw hq => ?take⟩
  case read =>
    rw [handle_read_of_report hr hc, readReturns_of_room (by exact hroom), hr]
  case arrive => rw [handle_arrive_of_reading hr hin, readReturns_of_room hroom]
  case take =>
    by_cases hkind : r.kindByte = s.cfg.ridInput
    · have hinp := exec_inp r { s with queue := q }
      have hrow := exec_decodeReport_of_input (s := { s with queue := q }) hcfg hkind
      exact ⟨_, handle_take_of_idle hidle hw hq (hrow.trans hinp), rfl, rfl, rfl, (if_pos hkind).trans hinp⟩
    · obtain ⟨t, hasm⟩ := exec_asm_eq_next r { s with queue := q }
      have hrow := exec_decodeReport_of_not_input (s := { s with queue := q }) (.inr hkind)
      have htake := handle_take_of_idle hidle hw hq (hrow.trans hasm)
      obtain ⟨b, e, v, rfl⟩ := exec_eq_update hasm
      exact ⟨_, htake, rfl, rfl, rfl, (if_neg hkind).trans hasm⟩

/-- Settles O40: in each place the step decodes what stands there and runs it; an idle session does nothing after. -/
theorem stepRunsDecodedInstruction : Obligations.StepRunsDecodedInstruction := by
  intro s rest i
  refine ⟨fun bytes hevents hdecode => ?port, fun r q hevents hq hidle hw hdecode t hexec => ?report,
    fun p hevents hp hdecode => ?payload⟩
  case port =>
    rw [step_of_events hevents, handle, issueOp_of_ok (s := { s with events := rest }) hdecode]
  case report =>
    rw [step_of_events hevents]
    cases hdecode
    exact handle_take_of_idle (s := { s with events := rest }) hidle hw hq hexec
  case payload =>
    rw [step_of_events hevents, handle, dispatchPending_of_ok (s := { s with events := rest }) hp hdecode]

/-! ### send_and_wait up to its loop (R213, R220) -/

theorem exec_enc_eq_next {cmd : List Byte} {s t : State} : exec (.enc cmd) s = .next t ↔
    tooLong s.cfg cmd = false ∧ t = s.deliver (.reports (encodeCommand s.cfg cmd)) := by
  rw [exec_enc, execEnc]
  cases tooLong s.cfg cmd
  · exact ⟨fun h => ⟨rfl, by cases h; rfl⟩, fun h => by rw [h.2]; rfl⟩
  · exact ⟨fun h => (by cases h), fun h => (by cases h.1)⟩

/-- The state in which ECLR and ENC have returned. -/
def State.prepared (s : State) (cmd : List Byte) : State :=
  ((s.settle.clearEvt evtHcf).deliver .none).deliver (.reports (encodeCommand s.cfg cmd))

/-- The state in which a wait has begun: HCF cleared, the reports of ENC written, the command outstanding. -/
def State.begun (s : State) (cmd : List Byte) (ackOnly : Bool) (timeout : Nat) : State :=
  { s with
    evt := evtClear s.evt evtHcf
    result := .reports (encodeCommand s.cfg cmd)
    sent := s.sent ++ encodeCommand s.cfg cmd
    session := .awaitingResponse
    wait := some ⟨cmd, ackOnly, s.now + timeout⟩
    ret := .none }

theorem exec_enc_after_eclr {cmd : List Byte} {s t : State} :
    exec (.enc cmd) ((s.settle.clearEvt evtHcf).deliver .none) = .next t ↔
      tooLong s.cfg cmd = false ∧ t = s.prepared cmd := by
  rw [exec_enc_eq_next, State.prepared, deliver_cfg, clearEvt_cfg, settle_cfg]

/-- The writes and the start of the wait, in the state in which ECLR and ENC have returned. -/
theorem prepared_awaiting (s : State) (cmd : List Byte) (ackOnly : Bool) (timeout : Nat) :
    { s.prepared cmd with
      sent := (s.prepared cmd).sent ++ encodeCommand s.cfg cmd
      session := .awaitingResponse
      wait := some ⟨cmd, ackOnly, (s.prepared cmd).now + timeout⟩
      ret := .none } = s.begun cmd ackOnly timeout := by
  apply State.eq_of_fields <;> simp [State.prepared, State.begun]

theorem writeAndAwait_prepared (s : State) (cmd : List Byte) (ackOnly : Bool) (timeout : Nat) (counts : List Nat) :
    writeAndAwait cmd ackOnly timeout counts (s.prepared cmd) =
      if counts.take (chunkCount cmd.length) = List.replicate (chunkCount cmd.length) 64 then
        .next (s.begun cmd ackOnly timeout)
      else .refused .shortWrite := by
  have hencoded : (s.prepared cmd).encoded = encodeCommand s.cfg cmd := rfl
  rw [writeAndAwait, hencoded, encodeCommand_length, prepared_awaiting]

/-- send_and_wait answers a next state exactly from an idle session, for a command CMD_MAX allows, with full writes. -/
theorem sendAndWait_eq_next {cmd : List Byte} {ackOnly : Bool} {timeout : Nat} {counts : List Nat} {s t : State} :
    sendAndWait cmd ackOnly timeout counts s = .next t ↔
      s.settle.session = .idle ∧ tooLong s.cfg cmd = false ∧
      counts.take (chunkCount cmd.length) = List.replicate (chunkCount cmd.length) 64 ∧
      t = s.begun cmd ackOnly timeout := by
  unfold sendAndWait
  split
  case isTrue hbusy => exact ⟨fun h => (by cases h), fun h => absurd h.1 hbusy⟩
  case isFalse hidle =>
    rw [exec_eclr, andThen_next, andThen_eq_next]
    constructor
    · rintro ⟨u, hu, hwrite⟩
      obtain ⟨hfits, rfl⟩ := exec_enc_after_eclr.mp hu
      rw [writeAndAwait_prepared] at hwrite
      split at hwrite
      case isTrue hcounts =>
        cases hwrite
        exact ⟨not_not.mp hidle, hfits, hcounts, rfl⟩
      case isFalse => cases hwrite
    · rintro ⟨-, hfits, hcounts, rfl⟩
      exact ⟨_, exec_enc_after_eclr.mpr ⟨hfits, rfl⟩, (writeAndAwait_prepared ..).trans (if_pos hcounts)⟩

/-- A write of every report counts 64. -/
theorem sendAndWait_of_idle {cmd : List Byte} {s : State} (hidle : s.session = .idle)
    (hfits : tooLong s.cfg cmd = false) (ackOnly : Bool) (timeout : Nat) :
    sendAndWait cmd ackOnly timeout (List.replicate (encodeCommand s.cfg cmd).length 64) s =
      .next (s.begun cmd ackOnly timeout) := by
  refine sendAndWait_eq_next.mpr ⟨by rw [settle_of_idle hidle, hidle], hfits, ?_, rfl⟩
  rw [encodeCommand_length, List.take_replicate, Nat.min_self]

/-- Settles O49: the hypothesis on ENC says that CMD_MAX allows the command and what its reports are. -/
theorem sendAndWaitStartsWait : Obligations.SendAndWaitStartsWait := by
  intro s cmd ackOnly timeout rs hidle henc
  obtain ⟨hfits, heq⟩ := exec_enc_eq_next.mp henc
  obtain rfl : rs = encodeCommand s.cfg cmd := PortResult.reports.inj (congrArg State.result heq)
  exact sendAndWait_of_idle hidle hfits ackOnly timeout

/-- Settles O50: a waiting session settles to AWAITING_RESPONSE, which is not IDLE. -/
theorem secondCommandRefused : Obligations.SecondCommandRefused := by
  intro s cmd ackOnly timeout counts hs
  rw [handle, sendAndWait, settle_of_waiting hs]
  exact if_pos (fun h => nomatch h)

/-! ### write_config, get-config and connecting (R216, R217, R223) -/

theorem rateRemaining_eq_none {s : State} :
    rateRemaining s = none ↔ ∀ last, s.tlast = some last → last + 1000 ≤ s.now := by
  unfold rateRemaining
  cases s.tlast with
  | none => simp
  | some last =>
    simp only [ite_eq_right_iff, reduceCtorEq, imp_false, Option.some.injEq, forall_eq']
    omega

theorem handle_writeConfig_of_outside {s : State} (h : rateRemaining s = none) (firmware : Word) (rec : ConfigRecord)
    (timeout : Nat) (counts : List Nat) : handle (.writeConfig firmware rec timeout counts) s =
      sendAndWait (buildWriteCmd s.cfg firmware rec) true timeout counts { s with tlast := some s.now } := by
  rw [handle, writeConfig, h]

/-- Settles O57: a rejected write sends nothing, and outside the window TLAST moves before anything is sent. -/
theorem writeReachesChannelOnlyAfterWindow : Obligations.WriteReachesChannelOnlyAfterWindow := by
  intro s t firmware rec timeout counts h hsent
  cases hrate : rateRemaining s with
  | some remaining =>
    rw [handle_writeConfig_of_rateRemaining hrate] at h
    cases h
    exact absurd rfl hsent
  | none =>
    rw [handle_writeConfig_of_outside hrate] at h
    obtain ⟨-, -, -, rfl⟩ := sendAndWait_eq_next.mp h
    exact ⟨rateRemaining_eq_none.mp hrate, rfl⟩

theorem takesV5_iff (firmware : Word) : takesV5 firmware = true ↔ 5 ≤ firmware.toNat := decide_eq_true_iff

theorem buildWriteCmd_of_v5 {c : Params} {firmware : Word} (hrule : c.writeCmdRule = .tagSizeRecord)
    (h : 5 ≤ firmware.toNat) (rec : ConfigRecord) :
    buildWriteCmd c firmware rec = c.tags.writeConfigV5 :: 250 :: (pack rec).val := by
  rw [buildWriteCmd, hrule]
  exact if_pos ((takesV5_iff firmware).mpr h)

theorem buildWriteCmd_of_legacy {c : Params} {firmware : Word} (hrule : c.writeCmdRule = .tagSizeRecord)
    (h : firmware.toNat < 5) (rec : ConfigRecord) :
    buildWriteCmd c firmware rec = c.tags.writeConfig :: Config.freeLegacyWrite rec := by
  rw [buildWriteCmd, hrule]
  exact if_neg (mt (takesV5_iff firmware).mp (by omega))

/-- Settles O58: outside the window the request is sent by send_and_wait, and 252 bytes make five reports. -/
theorem writeOutsideWindowIsSent : Obligations.WriteOutsideWindowIsSent := by
  intro s firmware rec timeout hidle hmax hrule hwindow
  have hfits : tooLong s.cfg (buildWriteCmd s.cfg firmware rec) = false := by rw [tooLong, hmax]; rfl
  have hsend := sendAndWait_of_idle (s := { s with tlast := some s.now }) hidle hfits true timeout
  refine ⟨buildWriteCmd s.cfg firmware rec, encodeCommand s.cfg (buildWriteCmd s.cfg firmware rec),
    State.begun { s with tlast := some s.now } (buildWriteCmd s.cfg firmware rec) true timeout,
    fun h5 => ⟨buildWriteCmd_of_v5 hrule h5 rec, ?count⟩, fun h5 => ⟨_, buildWriteCmd_of_legacy hrule h5 rec⟩,
    encodeCommand_slices _ _, ?sent, rfl, rfl, rfl, rfl⟩
  case count =>
    rw [encodeCommand_length, buildWriteCmd_of_v5 hrule h5 rec, List.length_cons, List.length_cons, pack_length]
    rfl
  case sent => exact (handle_writeConfig_of_outside (rateRemaining_eq_none.mpr hwindow) ..).trans hsend

/-- Settles O59: the threshold read from either side. -/
theorem firmwareChoosesVariant : Obligations.FirmwareChoosesVariant := by
  intro s firmware timeout counts
  have htag : getConfigTag s.cfg firmware =
      if firmware.toNat < 5 then s.cfg.tags.getConfig else s.cfg.tags.getConfigV5 := by
    unfold getConfigTag
    by_cases h5 : firmware.toNat < 5
    · rw [if_pos h5, if_neg (mt (takesV5_iff firmware).mp (by omega))]
    · rw [if_neg h5, if_pos ((takesV5_iff firmware).mpr (by omega))]
  exact congrArg (fun tag => sendAndWait [tag] false timeout counts s) htag

/-- Settles O60: the bound on the failures read from either side. -/
theorem connectionGivesUpAfterRetries : Obligations.ConnectionGivesUpAfterRetries := by
  intro s failures
  rw [handle, connect]
  by_cases h : failures < s.cfg.connectRetries
  · rw [if_pos h, if_neg (by omega)]
  · rw [if_neg h, if_pos (by omega)]

end Sys2Proof.Machine

/-! The machine's steps (10_state.md R26, R31, 70_reset_and_hazards.md R270, R271): every step but a reset is a chain of
moves, and what each move keeps every step keeps. -/

namespace Sys2Proof.Machine

/-! ### Moves -/

/-- The moves a procedure is made of: an operation on the port, or a change of what the host, the reader and the
channel keep. -/
inductive Move : State → State → Prop
  | operation {i : Instr} {s t : State} (h : exec i s = .next t) : Move s t
  | settle (s : State) : Move s s.settle
  | await (s : State) (rs : List Report) (w : Wait) : Move s
      { s with sent := s.sent ++ rs, session := .awaitingResponse, wait := some w, ret := .none }
  | finish (s : State) {session : Session} (h : session = .complete ∨ session = .timedOut) (ret : HostReturn)
      (pending : Option (List Byte)) : Move s
      { s with session := session, wait := none, ret := ret, pending := pending }
  | resynchronize {s : State} (h : s.wait.isSome = true) : Move s { s with session := .resynchronized }
  | enqueue {s : State} (r : Report) (h : s.queue.length < s.cfg.queueCap) : Move s { s with queue := s.queue ++ [r] }
  | dequeue {s : State} {r : Report} {q : List Report} (h : s.queue = r :: q) : Move s { s with queue := q }
  | stamp (s : State) : Move s { s with tlast := some s.now }
  | tick (s : State) (ms : Nat) : Move s { s with now := s.now + ms }
  | note (s : State) (pending : Option (List Byte)) (channel : List Report) (reading : Option Nat) (blocking : Bool)
      (result : PortResult) (ret : HostReturn) (lastRead : ReadReturn) (events : List Event) : Move s
      { s with pending := pending, channel := channel, reading := reading, blocking := blocking, result := result,
               ret := ret, lastRead := lastRead, events := events }

/-- A chain of moves. -/
abbrev Moves : State → State → Prop := Relation.ReflTransGen Move

/-- What every move keeps a chain of moves keeps. -/
theorem Moves.keeps {P : State → Prop} (hP : ∀ {s t : State}, Move s t → P s → P t) {s t : State} (h : Moves s t)
    (hs : P s) : P t := by
  induction h with
  | refl => exact hs
  | tail _ hmove ih => exact hP hmove ih

/-! ### Each procedure is a chain of moves -/

theorem issueOp_moves {bytes : List Byte} {s t : State} (h : issueOp bytes s = .next t) : Moves s t := by
  unfold issueOp at h
  split at h
  · exact .single (.operation h)
  · cases h

theorem sendAndWait_moves {cmd : List Byte} {ackOnly : Bool} {timeout : Nat} {counts : List Nat} {s t : State}
    (h : sendAndWait cmd ackOnly timeout counts s = .next t) : Moves s t := by
  obtain ⟨-, hfits, -, rfl⟩ := sendAndWait_eq_next.mp h
  have hsettle : Moves s s.settle := .single (.settle s)
  have heclr : Moves s _ := hsettle.tail (.operation (exec_eclr evtHcf s.settle))
  have henc : Moves s (s.prepared cmd) := heclr.tail (.operation (exec_enc_after_eclr.mpr ⟨hfits, rfl⟩))
  rw [← prepared_awaiting]
  exact henc.tail (.await _ _ _)

theorem writeConfig_moves {firmware : Word} {rec : ConfigRecord} {timeout : Nat} {counts : List Nat} {s t : State}
    (h : writeConfig firmware rec timeout counts s = .next t) : Moves s t := by
  unfold writeConfig at h
  split at h
  · cases h
    exact .single (.note s ..)
  · exact .head (.stamp s) (sendAndWait_moves h)

theorem readReturns_moves {r : Report} {s t : State} (h : readReturns r s = .next t) : Moves s t := by
  unfold readReturns at h
  split at h
  case isTrue hroom =>
    cases h
    exact .head (.enqueue r hroom) (.single (.note ..))
  case isFalse => cases h

theorem startRead_moves {timeout : Nat} {s t : State} (h : startRead timeout s = .next t) : Moves s t := by
  unfold startRead at h
  split at h
  · cases h
  · split at h
    · exact .head (.note s ..) (readReturns_moves h)
    · cases h
      exact .single (.note s ..)

theorem arrive_moves {r : Report} {s t : State} (h : arrive r s = .next t) : Moves s t := by
  unfold arrive at h
  split at h
  · exact readReturns_moves h
  · cases h
    exact .single (.note s ..)

theorem readEmpty_moves (s : State) : Moves s (readEmpty s) := by
  unfold readEmpty
  split
  · exact .single (.note s ..)
  · exact .refl

theorem timeOut_moves {s t : State} (h : timeOut s = .next t) : Moves s t := by
  cases (timeOut_eq s).symm.trans h
  exact .head (.operation (exec_aclr s)) (.single (.finish _ (.inr rfl) ..))

/-- What a waiting session makes of a step result: it finishes, resynchronizes or goes on. -/
theorem afterStep_moves {w : Wait} {res : StepResult} {s : State} (hw : s.wait = some w) :
    Moves s (afterStep w res s) := by
  by_cases hack : w.ackOnly = true ∧ isAck s.cfg res = true
  · rw [afterStep_of_ack hack.1 hack.2]
    exact .single (.finish s (.inl rfl) ..)
  have hnoAck : w.ackOnly = true → isAck s.cfg res = false := by simpa using hack
  by_cases hout : ∃ p, res.outcome = .complete p ∧ accepts w.cmd p = true
  · obtain ⟨p, hp, haccepts⟩ := hout
    rw [afterStep_of_accepted hnoAck hp haccepts]
    exact .single (.finish s (.inl rfl) ..)
  · rw [afterStep_of_unasked hnoAck (by simpa using hout)]
    split
    · exact .single (.resynchronize (by rw [hw]; rfl))
    · exact .refl

theorem afterReport_moves (s : State) : Moves s (afterReport s) := by
  unfold afterReport
  split
  case h_1 w res hw _ => exact afterStep_moves hw
  case h_2 => exact .refl

theorem takeQueued_moves {s t : State} (h : takeQueued s = .next t) : Moves s t := by
  unfold takeQueued at h
  split at h
  case h_1 =>
    cases h
    exact .refl
  case h_2 r q hq =>
    obtain ⟨u, hu, hafter⟩ := andThen_eq_next.mp h
    cases hafter
    exact .head (.dequeue hq) (.head (.operation hu) (afterReport_moves u))

theorem sessionTake_moves {s t : State} (h : sessionTake s = .next t) : Moves s t := by
  unfold sessionTake at h
  split at h
  · exact .head (.settle s) (timeOut_moves h)
  · exact .head (.settle s) (takeQueued_moves h)

theorem dispatchPending_moves {s t : State} (h : dispatchPending s = .next t) : Moves s t := by
  unfold dispatchPending at h
  split at h
  case h_1 =>
    cases h
    exact .refl
  case h_2 p hp =>
    split at h
    · exact .head (.note s ..) (.single (.operation h))
    · cases h
      exact .single (.note s ..)

/-- An input other than a reset is a chain of moves. -/
theorem handle_moves {e : Event} {s t : State} (he : e ≠ .reset) (h : handle e s = .next t) : Moves s t := by
  cases e with
  | issue bytes => exact issueOp_moves h
  | sendAndWait cmd ackOnly timeout counts => exact sendAndWait_moves h
  | writeConfig firmware record timeout counts => exact writeConfig_moves h
  | getConfig firmware timeout counts => exact sendAndWait_moves h
  | read timeout => exact startRead_moves h
  | arrive r => exact arrive_moves h
  | readEmpty => cases h; exact readEmpty_moves s
  | take => exact sessionTake_moves h
  | sessionReturn => cases h; exact .single (.settle s)
  | dispatch => exact dispatchPending_moves h
  | tick ms => cases h; exact .single (.tick s ms)
  | connect failures => cases h; exact .single (.note s ..)
  | setBlocking b => cases h; exact .single (.note s ..)
  | reset => exact absurd rfl he

/-- A step takes a reset, or it is a chain of moves. -/
theorem step_cases {s t : State} (h : step s = .next t) :
    (∃ rest, s.events = .reset :: rest ∧ t = resetPe { s with events := rest }) ∨
    (s.events.head? ≠ some .reset ∧ Moves s t) := by
  unfold step at h
  split at h
  case h_1 hnil =>
    cases h
    exact .inr ⟨by simp [hnil], .refl⟩
  case h_2 e rest hcons =>
    by_cases he : e = .reset
    · subst he
      cases h
      exact .inl ⟨rest, hcons, rfl⟩
    · exact .inr ⟨by simp [hcons, he], .head (.note s ..) (handle_moves he h)⟩

/-! ### Parameters and OVERFLOW -/

theorem Move.cfg_eq {s t : State} (h : Move s t) : t.cfg = s.cfg := by
  cases h with
  | operation h => exact exec_cfg h
  | settle => exact settle_cfg s
  | await => rfl
  | finish => rfl
  | resynchronize => rfl
  | enqueue => rfl
  | dequeue => rfl
  | stamp => rfl
  | tick => rfl
  | note => rfl

/-- A move that is no operation leaves ABUF and EVT. -/
theorem Move.operation_or_same {s t : State} (h : Move s t) :
    (∃ i, exec i s = .next t) ∨ (t.abuf = s.abuf ∧ t.evt = s.evt) := by
  cases h with
  | operation h => exact .inl ⟨_, h⟩
  | settle => exact .inr ⟨settle_abuf s, settle_evt s⟩
  | await => exact .inr ⟨rfl, rfl⟩
  | finish => exact .inr ⟨rfl, rfl⟩
  | resynchronize => exact .inr ⟨rfl, rfl⟩
  | enqueue => exact .inr ⟨rfl, rfl⟩
  | dequeue => exact .inr ⟨rfl, rfl⟩
  | stamp => exact .inr ⟨rfl, rfl⟩
  | tick => exact .inr ⟨rfl, rfl⟩
  | note => exact .inr ⟨rfl, rfl⟩

/-- No operation clears OVERFLOW: ECLR's mask does not reach bit 3 (R133). -/
theorem Effect.keeps_overflow {i : Instr} {s t : State} (h : Effect s i t) (hs : s.evt.getLsbD 3 = true) :
    t.evt.getLsbD 3 = true := by
  by_cases hi : ∃ m, i = .eclr m
  · obtain ⟨m, rfl⟩ := hi
    cases h with
    | returns => exact hs
    | assembles hframes => obtain ⟨r, hr⟩ := hframes; simp at hr
    | drops hdrops => obtain ⟨r, hr⟩ := hdrops; simp at hr
    | clearsEvt => rw [deliver_evt, clearEvt_evt, evtClear_getLsbD _ _ _ (by omega), hs]; rfl
  · obtain ⟨e, he⟩ := h.evt_eq_or (not_exists.mp hi)
    rw [he, BitVec.getLsbD_or, hs, Bool.true_or]

theorem Move.keeps_overflow {s t : State} (h : Move s t) (hs : s.evt.getLsbD 3 = true) : t.evt.getLsbD 3 = true := by
  rcases h.operation_or_same with ⟨i, hexec⟩ | ⟨-, hevt⟩
  · exact (effect_of_exec hexec).keeps_overflow hs
  · rw [hevt, hs]

/-- Settles O43: a step without a reset is a chain of moves, and each keeps the bit. -/
theorem overflowStaysUntilReset : Obligations.OverflowStaysUntilReset := by
  intro s t h hreset hs
  rcases step_cases h with ⟨rest, hevents, -⟩ | ⟨-, hmoves⟩
  · exact absurd (by rw [hevents]; rfl) hreset
  · exact hmoves.keeps (P := fun u => u.evt.getLsbD 3 = true) Move.keeps_overflow hs

/-- Settles O46: neither a reset nor a move writes the parameters. -/
theorem stepKeepsParameters : Obligations.StepKeepsParameters := by
  intro s t h
  rcases step_cases h with ⟨rest, -, rfl⟩ | ⟨-, hmoves⟩
  · rfl
  · exact hmoves.keeps (P := fun u => u.cfg = s.cfg) (fun hmove hu => hmove.cfg_eq.trans hu) rfl

/-! ### The invariant -/

/-- The events the framing steps set are bits 1 to 3. -/
theorem framing_evt_reserved {e : Byte} (he : e &&& 0xF0 = 0) (resync hcf : Bool) :
    ((e ||| if resync then 2 else 0) ||| if hcf then 4 else 0) &&& 0xF0 = 0 ∧
    ((e ||| if resync then 2 else 0) ||| 8) &&& 0xF0 = 0 := by
  have hresync : (e ||| if resync then 2 else 0) &&& 0xF0 = 0 := evtSet_reserved he (by cases resync <;> rfl)
  exact ⟨evtSet_reserved hresync (by cases hcf <;> rfl), evtSet_reserved hresync rfl⟩

theorem Effect.keeps_reservedEvt {i : Instr} {s t : State} (h : Effect s i t) (hs : s.ReservedEvtZero) :
    t.ReservedEvtZero := by
  cases h with
  | returns => exact hs
  | assembles _ start done hcf devinfo data =>
    cases hfit : s.cfg.bufCap.all (fun cap =>
        decide ((if s.resyncs start then [] else s.abuf).length + data.length ≤ cap)) with
    | true => rw [assemble_of_fits _ _ _ _ _ _ hfit]; exact (framing_evt_reserved hs _ _).1
    | false => rw [assemble_of_overflow _ _ _ _ _ _ hfit]; exact (framing_evt_reserved hs _ false).2
  | drops => exact evtSet_reserved hs rfl
  | clearsAbuf => exact hs
  | clearsEvt => exact evtClear_reserved hs

/-- Without a bound every append fits, and nothing sets OVERFLOW. -/
theorem Effect.keeps_noOverflow {i : Instr} {s t : State} (h : Effect s i t) (hcap : s.cfg.bufCap = none)
    (hs : s.evt.getLsbD 3 = false) : t.evt.getLsbD 3 = false := by
  cases h with
  | returns => exact hs
  | assembles _ start done hcf devinfo data =>
    rw [assemble_of_fits _ _ _ _ _ _ (by rw [hcap]; rfl)]
    have hresync : (if s.resyncs start = true then 2 else 0 : Byte).getLsbD 3 = false := by
      cases s.resyncs start <;> rfl
    have hhcf : (if hcf = true then 4 else 0 : Byte).getLsbD 3 = false := by cases hcf <;> rfl
    simp only [BitVec.getLsbD_or, hs, hresync, hhcf, Bool.or_false]
  | drops => rw [dropMalformed_eq, BitVec.getLsbD_or, hs]; rfl
  | clearsAbuf => exact hs
  | clearsEvt => rw [deliver_evt, clearEvt_evt, evtClear_getLsbD _ _ _ (by omega), hs, Bool.false_and]

/-- ABUF is kept, emptied, or extended by an append that fits. -/
theorem Effect.keeps_abufBounded {i : Instr} {s t : State} (h : Effect s i t) (hs : s.AbufBounded) :
    t.AbufBounded := by
  cases h with
  | returns => exact hs
  | assembles _ start done hcf devinfo data =>
    cases hfit : s.cfg.bufCap.all (fun cap =>
        decide ((if s.resyncs start then [] else s.abuf).length + data.length ≤ cap)) with
    | true =>
      rw [assemble_of_fits _ _ _ _ _ _ hfit]
      refine bufCap_all_mono ?_ hfit
      cases done <;> simp
    | false =>
      rw [assemble_of_overflow _ _ _ _ _ _ hfit]
      refine bufCap_all_mono ?_ hs
      cases s.resyncs start <;> simp
  | drops => exact hs
  | clearsAbuf => exact bufCap_all_mono (Nat.zero_le _) hs
  | clearsEvt => exact hs

theorem exec_keeps_inv {i : Instr} {s t : State} (h : exec i s = .next t) (hs : s.Inv) : t.Inv := by
  have heffect := effect_of_exec h
  have hreserved := heffect.keeps_reservedEvt hs.reservedEvt
  have hoverflow (hcap : s.cfg.bufCap = none) := heffect.keeps_noOverflow hcap (hs.noOverflow hcap)
  have hbounded := heffect.keeps_abufBounded hs.abuf
  obtain ⟨b, e, v, rfl⟩ := exec_eq_update h
  exact ⟨hs.params, hreserved, hoverflow, hbounded, hs.queue, hs.window, hs.session⟩

theorem settle_eq_update (s : State) : s.settle = { s with session := s.settle.session } := by
  apply State.eq_of_fields <;> simp

theorem settle_keeps_inv {s : State} (hs : s.Inv) : s.settle.Inv := by
  have hsession : s.settle.WaitMatchesSession := by
    have hwait := hs.session
    rw [State.WaitMatchesSession] at hwait
    rw [State.WaitMatchesSession, settle_wait, hwait, settle_session]
    cases s.session <;> rfl
  rw [settle_eq_update] at hsession ⊢
  exact ⟨hs.params, hs.reservedEvt, hs.noOverflow, hs.abuf, hs.queue, hs.window, hsession⟩

/-- Every move keeps the invariant. -/
theorem Move.keeps_inv {s t : State} (h : Move s t) (hs : s.Inv) : t.Inv := by
  cases h with
  | operation h => exact exec_keeps_inv h hs
  | settle => exact settle_keeps_inv hs
  | await => exact ⟨hs.params, hs.reservedEvt, hs.noOverflow, hs.abuf, hs.queue, hs.window, rfl⟩
  | finish _ hend =>
    refine ⟨hs.params, hs.reservedEvt, hs.noOverflow, hs.abuf, hs.queue, hs.window, ?_⟩
    rcases hend with rfl | rfl <;> rfl
  | resynchronize h => exact ⟨hs.params, hs.reservedEvt, hs.noOverflow, hs.abuf, hs.queue, hs.window, h⟩
  | enqueue r h =>
    refine ⟨hs.params, hs.reservedEvt, hs.noOverflow, hs.abuf, ?_, hs.window, hs.session⟩
    rw [State.QueueBounded, List.length_append]
    exact h
  | dequeue h =>
    refine ⟨hs.params, hs.reservedEvt, hs.noOverflow, hs.abuf, ?_, hs.window, hs.session⟩
    have hqueue := hs.queue
    rw [State.QueueBounded, h, List.length_cons] at hqueue
    exact Nat.le_of_succ_le hqueue
  | stamp =>
    exact ⟨hs.params, hs.reservedEvt, hs.noOverflow, hs.abuf, hs.queue, decide_eq_true (Nat.le_refl _), hs.session⟩
  | tick ms =>
    refine ⟨hs.params, hs.reservedEvt, hs.noOverflow, hs.abuf, hs.queue, ?_, hs.session⟩
    have hwindow := hs.window
    rw [State.WindowPast] at *
    cases hlast : s.tlast with
    | none => rfl
    | some last =>
      simp only [hlast, Option.all_some, decide_eq_true_eq] at *
      omega
  | note => exact ⟨hs.params, hs.reservedEvt, hs.noOverflow, hs.abuf, hs.queue, hs.window, hs.session⟩

theorem resetPe_keeps_inv {s : State} (hs : s.Inv) : (resetPe s).Inv where
  params := hs.params
  reservedEvt := show (0x00 : Byte) &&& 0xF0 = 0 by decide
  noOverflow _ := show (0x00 : Byte).getLsbD 3 = false by decide
  abuf := bufCap_all_mono (Nat.zero_le _) hs.abuf
  queue := hs.queue
  window := rfl
  session := rfl

/-- Settles O47: a reset establishes what it touches, and every other step is a chain of moves. -/
theorem stepKeepsInvariant : Obligations.StepKeepsInvariant := by
  intro s t hs h
  rcases step_cases h with ⟨rest, -, rfl⟩ | ⟨-, hmoves⟩
  · exact resetPe_keeps_inv (s := { s with events := rest })
      ⟨hs.params, hs.reservedEvt, hs.noOverflow, hs.abuf, hs.queue, hs.window, hs.session⟩
  · exact hmoves.keeps Move.keeps_inv hs

/-! ### Reset -/

/-- Settles O44: the four reset values, field by field. -/
theorem resetValues : Obligations.ResetValues := ⟨rfl, rfl, rfl, rfl⟩

/-- Settles O45: a reset is `resetPe`, which writes the four elements and none of the others. -/
theorem resetEventRestoresState : Obligations.ResetEventRestoresState := fun s rest hevents =>
  ⟨resetPe { s with events := rest }, step_of_events hevents, rfl, rfl, rfl, rfl, rfl, rfl, rfl, rfl, rfl, rfl, rfl⟩

/-- The suggested parameters meet the constraints of R8. -/
theorem suggested_ok : Config.suggested.Ok := by decide +kernel

/-- Settles O48: the suggested parameters are lawful, and everything else is empty, zero or unbounded. -/
theorem resetMeetsInvariant : Obligations.ResetMeetsInvariant :=
  ⟨suggested_ok, rfl, fun _ => rfl, rfl, Nat.zero_le _, rfl, rfl⟩

end Sys2Proof.Machine
